-- ==== Sys2Proof/Word.lean ====
section
/-! DEFINITION. The word types: a data byte and an operation word.
Every host-visible datum is 8 bits (20_memory.md R79); one operation is one 24-bit word
(30_encoding.md R100). Bit 0 is the least significant bit (20_memory.md R80). -/

namespace Sys2Proof

/-- A data byte: the width of every port (20_memory.md R79). -/
abbrev Byte := BitVec 8

/-- An operation word `W` (30_encoding.md R100). -/
abbrev OpWord := BitVec 24

end Sys2Proof
end

