-- ==== Sys2Proof/Config.lean ====
section
/-! DEFINITION. The configuration record (10_state.md R20 to R25) and the free values: what one
machine fixes, and what the spec leaves to a draw (00_scope.md R6).
The free values have no body: nothing can be proved of what they are. -/

namespace Sys2Proof

/-- `CFG.lamp_extender_kind` (10_state.md R21); the source also spells `none` as NO_EXTENDER. -/
inductive LampExtenderKind where
  | none
  | smallCard
  | largeCardA
  | largeCardB
  | largeCardC
  deriving DecidableEq, Repr

/-- `CFG.led_extender_kind` (10_state.md R22). -/
inductive LedExtenderKind where
  | none
  | cardA
  | cardB
  deriving DecidableEq, Repr

/-- `CFG.reel_multiplex_mode` (10_state.md R23). -/
inductive ReelMultiplexMode where
  | standardReel
  | fiveReel5To8
  | fiveReel8To5
  | fiveReel3To6
  | sixReel1To8
  | sixReel5To8
  | sevenReel
  | flutterbox
  deriving DecidableEq, Repr

/-- `LED_WIRING` (42_led_alpha.md R191). -/
inductive LedWiring where
  | reversed
  | direct
  deriving DecidableEq, Repr

/-- A row of the Barcrest table: two separate bytes (30_encoding.md R117). -/
structure ChrRow where
  call : Byte
  response : Byte
  deriving DecidableEq, Repr

/-- The three BwB tables (45_characteriser_bwb.md R240). -/
structure BwbTables where
  commonCall : Vector Byte 4
  commonResp : Vector Byte 5
  gameResp : Vector Byte 5
  deriving DecidableEq, Repr

/-- `CFG.chr` (10_state.md R24): rows 0..63 of a Barcrest table are the main rows, 64..71 the lamp rows. -/
inductive ChrConfig where
  | none
  | barcrest (tbl : Vector ChrRow 72)
  | bwb (tables : BwbTables)
  deriving DecidableEq, Repr

/-- Which auxiliary source a read composes (43_input_scanner.md R209, `which`). -/
inductive AuxPort where
  | aux1
  | aux2
  deriving DecidableEq, Repr

/-- One case of `aux_compose` (43_input_scanner.md R209): its three arguments and the byte they give. -/
structure AuxCase where
  port : AuxPort
  source : Byte
  pocket : Fin 12
  result : Byte
  deriving DecidableEq, Repr

/-- The configuration record as a session holds it (10_state.md R20), with the seven OPEN parameters
beside the source's fields (R25). `aux_compose` is a finite function, so it is carried as its list of
cases; arguments the list does not hold give the default, the projection on the byte (log 6). -/
structure Cfg where
  reelCount : Nat
  reelMode : ReelMultiplexMode
  lampExtender : LampExtenderKind
  ledExtender : LedExtenderKind
  chr : ChrConfig
  tIc24 : Nat
  ic24CouplesG2A : Bool
  ledWiring : LedWiring
  smallCardCommitPhase : Fin 3
  reel5Index : Nat
  auxCompose : List AuxCase
  bwbCheckpointAdvances : Bool
  deriving DecidableEq, Repr

/-- The default configuration (95_test_vectors.md, opening; 92_eei_decisions.md, OPEN parameters).
DESIGN CHOICE (log 4): `reel_count`, for which no default is given, is 4 here; no rule reads it. -/
def Cfg.standard : Cfg :=
  { reelCount := 4
    reelMode := .standardReel
    lampExtender := .none
    ledExtender := .none
    chr := .none
    tIc24 := 9900
    ic24CouplesG2A := false
    ledWiring := .reversed
    smallCardCommitPhase := 1
    reel5Index := 4
    auxCompose := []
    bwbCheckpointAdvances := false }

/-- `CFG.chr` as the host supplies it, before load has checked it (60_exceptions.md R282): a table may
have any number of rows, and a BwB table may be absent. -/
inductive RawChr where
  | none
  | barcrest (rows : List ChrRow)
  | bwb (commonCall commonResp gameResp : Option (List Byte))
  deriving DecidableEq, Repr

/-- The configuration record as the host supplies it (70_reset_and_hazards.md R310, R311): an
enumeration field is `none` for any value outside its set, and a number may be out of its range. -/
structure RawCfg where
  reelCount : Nat
  reelMode : Option ReelMultiplexMode
  lampExtender : Option LampExtenderKind
  ledExtender : Option LedExtenderKind
  chr : RawChr
  tIc24 : Nat
  ic24CouplesG2A : Bool
  ledWiring : Option LedWiring
  smallCardCommitPhase : Nat
  reel5Index : Int
  auxCompose : List AuxCase
  bwbCheckpointAdvances : Bool
  deriving DecidableEq, Repr

/-- The field a ConfigurationError reports (`info`, 60_exceptions.md R280; 70_reset_and_hazards.md R311). -/
inductive CfgField where
  | lampExtenderKind
  | ledExtenderKind
  | reelMultiplexMode
  | chr
  | tIc24
  | ledWiring
  | smallCardCommitPhase
  | reel5Index
  deriving DecidableEq, Repr

/-! The free values. Each is applied to the index of the draw (a count of the unit that draws:
`inputDraws` of the scanner, `chrDraws` of the characteriser), so every draw is independent of every
other (00_scope.md section 4, `draw`). DESIGN CHOICE, log 7 to 9. -/

/-- `IN[c]` at the instant of a read (10_state.md R67; 43_input_scanner.md R207). -/
opaque Config.inputPort : Nat → BitVec 3 → Byte

/-- The auxiliary source byte AUX1 or AUX2 at the instant of a read (43_input_scanner.md R211). -/
opaque Config.auxSource : Nat → AuxPort → Byte

/-- The gamball's pocket, 0..11, drawn afresh at each auxiliary read (43_input_scanner.md R211). -/
opaque Config.gamballPocket : Nat → Fin 12

/-- The CPU's index register X at the instant of a fallback read (44_characteriser_barcrest.md R232). -/
opaque Config.cpuIndexRegister : Nat → BitVec 16

/-- The CPU's program memory, space PROGMEM, at the instant of a read (20_memory.md R76). -/
opaque Config.programMemory : Nat → BitVec 16 → Byte

/-- The BwB pseudo-random byte of an unmatched call (45_characteriser_bwb.md R246). -/
opaque Config.bwbNoise : Nat → Byte

/-- The BwB response at an index past the 5-byte sequence (45_characteriser_bwb.md R245). -/
opaque Config.bwbPastEnd : Nat → Byte

end Sys2Proof
end

