-- ==== Sys2Proof/Syntax.lean ====
section
/-! DEFINITION. The operations of SCB, one constructor per row of the operation map
(30_encoding.md R102), and the two textual layers above them: assembler lines (R120) and
pseudo-operations (R121). -/

namespace Sys2Proof

/-- One operation of the host interface, or the internal event of IC24 (30_encoding.md R102).
A `level` is `true` for asserted (40_strobe_sequencer.md R141). -/
inductive Instr where
  | setgateA (level : Bool)
  | setgateB (level : Bool)
  | setgateC (level : Bool)
  | setinhG1 (level : Bool)
  | setinhG2A (level : Bool)
  | setinhG2B (level : Bool)
  | lampa (data : Byte)
  | lampb (data : Byte)
  | lampx (data : Byte)
  | ledw (data : Byte)
  | alphaclk (level : Bool)
  | alphadat (level : Bool)
  | inread
  | aux1r
  | aux2r
  | chrw (offset : Byte) (call : Byte)
  | chrr (offset : Byte)
  | meterw (data : Byte)
  | triacw (data : Byte)
  | tick
  | reset
  | wait (n : BitVec 16)
  | ic24exp
  deriving DecidableEq, Repr

/-- A pseudo-operation (30_encoding.md R121): it has no word of its own and stands for its expansion. -/
inductive Pseudo where
  | setcol (c : BitVec 3)
  | enable
  | lampwrite (c : BitVec 3) (d : Byte)
  | waitms (m : Nat)
  deriving DecidableEq, Repr

/-- An assembler line (30_encoding.md R120): a mnemonic and its numerals, already read. -/
structure AsmLine where
  mnemonic : String
  operands : List Nat
  deriving DecidableEq, Repr

end Sys2Proof
end

