-- ==== Sys2Proof/WellFormed.lean ====
section
/-! DEFINITION. What a host program may hold: which operations the host may issue
(30_encoding.md R103) and which assembler lines have the form of R120. The operands of `Instr` carry
their widths in their types, so no range check is left there. -/

namespace Sys2Proof

/-- An operation the host may issue: every one but the internal event IC24EXP (30_encoding.md R103). -/
def Instr.wellFormed : Instr → Bool
  | .ic24exp => false
  | _ => true

/-- A host program: a list of operations the host may issue. -/
def programWellFormed (p : List Instr) : Bool := p.all Instr.wellFormed

/-- For each mnemonic of R120, one exclusive upper bound per operand. IC24EXP has no assembler form. -/
def operandBounds : String → Option (List Nat)
  | "SETGATE.A" => some [2]
  | "SETGATE.B" => some [2]
  | "SETGATE.C" => some [2]
  | "SETINH.G1" => some [2]
  | "SETINH.G2A" => some [2]
  | "SETINH.G2B" => some [2]
  | "LAMPA" => some [256]
  | "LAMPB" => some [256]
  | "LAMPX" => some [256]
  | "LEDW" => some [256]
  | "ALPHACLK" => some [2]
  | "ALPHADAT" => some [2]
  | "INREAD" => some []
  | "AUX1R" => some []
  | "AUX2R" => some []
  | "CHRW" => some [256, 256]
  | "CHRR" => some [256]
  | "METERW" => some [256]
  | "TRIACW" => some [256]
  | "TICK" => some []
  | "RESET" => some []
  | "WAIT" => some [65536]
  | _ => none

/-- A line of R120: a known mnemonic, the right number of operands, each in its range. -/
def AsmLine.wellFormed (a : AsmLine) : Bool :=
  match operandBounds a.mnemonic with
  | none => false
  | some bounds =>
    a.operands.length == bounds.length && (a.operands.zip bounds).all fun p => decide (p.1 < p.2)

end Sys2Proof
end

