-- ==== Sys2Proof/Decode.lean ====
section
/-! DEFINITION. The decoder of operation words, the host's decoder, the encoder, the assembler and the
pseudo-operations (30_encoding.md part 1). -/

namespace Sys2Proof

/-- Why a word is not an operation a host may issue. The first three are the three ways of R111 for a
word to be reserved; the last is R103. -/
inductive DecodeError where
  /-- `op` in 0, 8, 9, A, B, C, D (30_encoding.md R111). -/
  | reservedOp
  /-- a listed `op` with a `sel` the table does not list (30_encoding.md R111). -/
  | reservedSel
  /-- a listed (`op`, `sel`) with a nonzero bit in a position the row fixes to zero (30_encoding.md R111). -/
  | reservedBits
  /-- IC24EXP, which is no operation of a host program (30_encoding.md R103). Host decoder only. -/
  | internalEvent
  deriving DecidableEq, Repr

/-! The four fields of the word (30_encoding.md R100). -/

/-- `W[23:20]`. -/
def opField (w : OpWord) : Nat := (w.extractLsb' 20 4).toNat

/-- `W[19:16]`. -/
def selField (w : OpWord) : Nat := (w.extractLsb' 16 4).toNat

/-- `W[15:8]`. -/
def offField (w : OpWord) : Byte := w.extractLsb' 8 8

/-- `W[7:0]`. -/
def datField (w : OpWord) : Byte := w.extractLsb' 0 8

/-- `n = off : dat`, the count of a WAIT (30_encoding.md R101). -/
def countField (w : OpWord) : BitVec 16 := w.extractLsb' 0 16

/-! The operand shapes of the rows (30_encoding.md R101, R102). A field a row marks "0" must be zero. -/

/-- `off = 0`, `dat = 0000000l`. -/
def levelRow (w : OpWord) (build : Bool → Instr) : Except DecodeError Instr :=
  if w.extractLsb' 1 15 = 0 then .ok (build (w.getLsbD 0)) else .error .reservedBits

/-- `off = 0`, `dat` = data. -/
def dataRow (w : OpWord) (build : Byte → Instr) : Except DecodeError Instr :=
  if offField w = 0 then .ok (build (datField w)) else .error .reservedBits

/-- `off = 0`, `dat = 0`. -/
def plainRow (w : OpWord) (i : Instr) : Except DecodeError Instr :=
  if countField w = 0 then .ok i else .error .reservedBits

/-- `off` = offset, `dat = 0`. -/
def offsetRow (w : OpWord) (build : Byte → Instr) : Except DecodeError Instr :=
  if datField w = 0 then .ok (build (offField w)) else .error .reservedBits

/-- The operation a word encodes, row by row of 30_encoding.md R102; every other word is reserved
(R111). Total: there is a result for every word. -/
def decode (w : OpWord) : Except DecodeError Instr :=
  match opField w with
  | 1 =>
    match selField w with
    | 0 => levelRow w .setgateA
    | 1 => levelRow w .setgateB
    | 2 => levelRow w .setgateC
    | _ => .error .reservedSel
  | 2 =>
    match selField w with
    | 0 => levelRow w .setinhG1
    | 1 => levelRow w .setinhG2A
    | 2 => levelRow w .setinhG2B
    | _ => .error .reservedSel
  | 3 =>
    match selField w with
    | 0 => dataRow w .lampa
    | 1 => dataRow w .lampb
    | 2 => dataRow w .lampx
    | _ => .error .reservedSel
  | 4 =>
    match selField w with
    | 0 => dataRow w .ledw
    | 1 => levelRow w .alphaclk
    | 2 => levelRow w .alphadat
    | _ => .error .reservedSel
  | 5 =>
    match selField w with
    | 0 => plainRow w .inread
    | 1 => plainRow w .aux1r
    | 2 => plainRow w .aux2r
    | _ => .error .reservedSel
  | 6 =>
    match selField w with
    | 0 => .ok (.chrw (offField w) (datField w))
    | 1 => offsetRow w .chrr
    | _ => .error .reservedSel
  | 7 =>
    match selField w with
    | 0 => dataRow w .meterw
    | 1 => dataRow w .triacw
    | 2 => plainRow w .tick
    | _ => .error .reservedSel
  | 14 =>
    match selField w with
    | 0 => plainRow w .reset
    | 1 => .ok (.wait (countField w))
    | _ => .error .reservedSel
  | 15 =>
    match selField w with
    | 0 => plainRow w .ic24exp
    | _ => .error .reservedSel
  | _ => .error .reservedOp

/-- The host-side decoder: it refuses IC24EXP in a program (30_encoding.md R103). -/
def decodeHost (w : OpWord) : Except DecodeError Instr :=
  match decode w with
  | .error e => .error e
  | .ok i => if i.wellFormed then .ok i else .error .internalEvent

/-- The decoder on a row's bits, numbered as spec/opcode_table.json numbers them: one 24-bit word,
every bit above `nbits` zero. -/
def decodeTableWord (nbits w : Nat) : Option Instr :=
  (decode (BitVec.ofNat 24 (w % 2 ^ nbits))).toOption

/-! The encoder (30_encoding.md R100 to R102, R120). -/

/-- The word `op : sel : off : dat` (30_encoding.md R100). -/
def packWord (op sel : BitVec 4) (off dat : Byte) : OpWord := op ++ sel ++ off ++ dat

/-- A level as a data byte `0000000l` (30_encoding.md R101). -/
def levelByte (level : Bool) : Byte := 0#7 ++ BitVec.ofBool level

/-- The operation word of an operation (30_encoding.md R102). -/
def encode : Instr → OpWord
  | .setgateA l => packWord 1 0 0 (levelByte l)
  | .setgateB l => packWord 1 1 0 (levelByte l)
  | .setgateC l => packWord 1 2 0 (levelByte l)
  | .setinhG1 l => packWord 2 0 0 (levelByte l)
  | .setinhG2A l => packWord 2 1 0 (levelByte l)
  | .setinhG2B l => packWord 2 2 0 (levelByte l)
  | .lampa d => packWord 3 0 0 d
  | .lampb d => packWord 3 1 0 d
  | .lampx d => packWord 3 2 0 d
  | .ledw d => packWord 4 0 0 d
  | .alphaclk l => packWord 4 1 0 (levelByte l)
  | .alphadat l => packWord 4 2 0 (levelByte l)
  | .inread => packWord 5 0 0 0
  | .aux1r => packWord 5 1 0 0
  | .aux2r => packWord 5 2 0 0
  | .chrw o c => packWord 6 0 o c
  | .chrr o => packWord 6 1 o 0
  | .meterw d => packWord 7 0 0 d
  | .triacw d => packWord 7 1 0 d
  | .tick => packWord 7 2 0 0
  | .reset => packWord 14 0 0 0
  | .wait n => packWord 14 1 (n.extractLsb' 8 8) (n.extractLsb' 0 8)
  | .ic24exp => packWord 15 0 0 0

/-- The operation map's `match` column (30_encoding.md R102). -/
def rowMatch : Instr → OpWord
  | .setgateA _ => 0x100000
  | .setgateB _ => 0x110000
  | .setgateC _ => 0x120000
  | .setinhG1 _ => 0x200000
  | .setinhG2A _ => 0x210000
  | .setinhG2B _ => 0x220000
  | .lampa _ => 0x300000
  | .lampb _ => 0x310000
  | .lampx _ => 0x320000
  | .ledw _ => 0x400000
  | .alphaclk _ => 0x410000
  | .alphadat _ => 0x420000
  | .inread => 0x500000
  | .aux1r => 0x510000
  | .aux2r => 0x520000
  | .chrw _ _ => 0x600000
  | .chrr _ => 0x610000
  | .meterw _ => 0x700000
  | .triacw _ => 0x710000
  | .tick => 0x720000
  | .reset => 0xE00000
  | .wait _ => 0xE10000
  | .ic24exp => 0xF00000

/-- The operation map's `mask` column (30_encoding.md R102). -/
def rowMask : Instr → OpWord
  | .setgateA _ => 0xFFFFFE
  | .setgateB _ => 0xFFFFFE
  | .setgateC _ => 0xFFFFFE
  | .setinhG1 _ => 0xFFFFFE
  | .setinhG2A _ => 0xFFFFFE
  | .setinhG2B _ => 0xFFFFFE
  | .lampa _ => 0xFFFF00
  | .lampb _ => 0xFFFF00
  | .lampx _ => 0xFFFF00
  | .ledw _ => 0xFFFF00
  | .alphaclk _ => 0xFFFFFE
  | .alphadat _ => 0xFFFFFE
  | .inread => 0xFFFFFF
  | .aux1r => 0xFFFFFF
  | .aux2r => 0xFFFFFF
  | .chrw _ _ => 0xFF0000
  | .chrr _ => 0xFF00FF
  | .meterw _ => 0xFFFF00
  | .triacw _ => 0xFFFF00
  | .tick => 0xFFFFFF
  | .reset => 0xFFFFFF
  | .wait _ => 0xFF0000
  | .ic24exp => 0xFFFFFF

/-! The assembler (30_encoding.md R120). -/

/-- The operation of a line whose numerals are in range; `none` for a line of no form of R120. -/
def assemble (a : AsmLine) : Option Instr :=
  if a.wellFormed then
    match a.mnemonic, a.operands with
    | "SETGATE.A", [l] => some (.setgateA (l == 1))
    | "SETGATE.B", [l] => some (.setgateB (l == 1))
    | "SETGATE.C", [l] => some (.setgateC (l == 1))
    | "SETINH.G1", [l] => some (.setinhG1 (l == 1))
    | "SETINH.G2A", [l] => some (.setinhG2A (l == 1))
    | "SETINH.G2B", [l] => some (.setinhG2B (l == 1))
    | "LAMPA", [d] => some (.lampa (BitVec.ofNat 8 d))
    | "LAMPB", [d] => some (.lampb (BitVec.ofNat 8 d))
    | "LAMPX", [d] => some (.lampx (BitVec.ofNat 8 d))
    | "LEDW", [d] => some (.ledw (BitVec.ofNat 8 d))
    | "ALPHACLK", [l] => some (.alphaclk (l == 1))
    | "ALPHADAT", [l] => some (.alphadat (l == 1))
    | "INREAD", [] => some .inread
    | "AUX1R", [] => some .aux1r
    | "AUX2R", [] => some .aux2r
    | "CHRW", [o, c] => some (.chrw (BitVec.ofNat 8 o) (BitVec.ofNat 8 c))
    | "CHRR", [o] => some (.chrr (BitVec.ofNat 8 o))
    | "METERW", [d] => some (.meterw (BitVec.ofNat 8 d))
    | "TRIACW", [d] => some (.triacw (BitVec.ofNat 8 d))
    | "TICK", [] => some .tick
    | "RESET", [] => some .reset
    | "WAIT", [n] => some (.wait (BitVec.ofNat 16 n))
    | _, _ => none
  else none

/-! The pseudo-operations (30_encoding.md R121). -/

/-- `SETCOL c`: gate A last. -/
def expandSetcol (c : BitVec 3) : List Instr :=
  [.setgateC (c.getLsbD 2), .setgateB (c.getLsbD 1), .setgateA (c.getLsbD 0)]

/-- `WAIT us`, repeated if above 65535: full counts first, then what is left (log 22). -/
def expandWait (us : Nat) : List Instr :=
  if us ≤ 65535 then [.wait (BitVec.ofNat 16 us)]
  else List.replicate (us / 65535) (.wait 65535)
    ++ (if us % 65535 = 0 then [] else [.wait (BitVec.ofNat 16 (us % 65535))])

/-- The expansion of a pseudo-operation (30_encoding.md R121). -/
def Pseudo.expand : Pseudo → List Instr
  | .setcol c => expandSetcol c
  | .enable => [.setinhG2A false, .setinhG2B false, .setinhG1 true]
  | .lampwrite c d => expandSetcol c ++ [.lampa d]
  | .waitms m => expandWait (1000 * m)

end Sys2Proof
end

