-- ==== Sys2Proof/Machine/State.lean ====
section
/-! DEFINITION. The state of SCB, unit by unit (00_scope.md R1; 10_state.md), the reasons a step can
stop, and the state after load and after reset (10_state.md R68). -/

namespace Sys2Proof.Machine

/-! ## Cell arrays -/

/-- A space of cells, sparse: (address, value) pairs. `Memory Byte` is a list of `Host.Cell`.
An unlisted address reads as the space's reset value (10_state.md R43, R44; log 13). -/
abbrev Memory (β : Type) := List (Nat × β)

/-- What a lamp cell nothing has written holds: off (10_state.md R43). -/
abbrev lampOff : Bool := false

/-- What an LED cell nothing has written holds (10_state.md R44). -/
abbrev ledBlank : Byte := 0x00

/-- The canonical form: addresses strictly rising, no entry equal to what an unlisted address reads as. -/
abbrev Memory.wf {β : Type} (blank : β) (m : Memory β) : Prop :=
  m.Pairwise (fun p q => p.1 < q.1) ∧ ∀ p ∈ m, p.2 ≠ blank

/-! ## Conditions, events, faults and refusals -/

/-- The two conditions SCB can signal (60_exceptions.md R280). -/
inductive Condition where
  | characteriserFault
  | configurationError
  deriving DecidableEq, Repr

/-- The spec's numeric code of a condition (60_exceptions.md R280). -/
def Condition.code : Condition → Nat
  | .characteriserFault => 1
  | .configurationError => 2

/-- An output event (10_state.md R66). -/
inductive Event where
  /-- 46_reel_meter_mux.md R268. -/
  | meterPulse (index : Fin 8) (active : Bool)
  /-- 46_reel_meter_mux.md R266. -/
  | stepperUpdate (index : Nat) (nibble : BitVec 4)
  /-- 60_exceptions.md R286. -/
  | mainsLine (level : Bool)
  /-- 42_led_alpha.md R195. -/
  | alphaBit (bit : Bool)
  /-- 44_characteriser_barcrest.md R233. -/
  | log (condition : Condition)
  deriving DecidableEq, Repr

/-- The one fatal condition. Nothing in SCB faults at run time (60_exceptions.md R280, R284), so no
step answers a fault. -/
inductive Fault where
  /-- ConfigurationError with the offending field: raised by `State.load` alone, never by a step
  (60_exceptions.md R282). Safe: no session results. -/
  | configurationError (info : CfgField)
  deriving DecidableEq, Repr

/-- Why a run is outside the spec (60_exceptions.md R285): a refusal is no condition of SCB. -/
inductive Refusal where
  /-- An instruction without a meaning, by its mnemonic: raised by an arm of `exec`. Safe. -/
  | notModelled (mnemonic : String)
  /-- The host's stream holds a word that is no operation of a host program (30_encoding.md R103,
  R111): raised by `step`. Safe. -/
  | invalidWord (reason : DecodeError)
  /-- IC24EXP while no expiry is due, which cannot occur (40_strobe_sequencer.md R153): raised by
  the meaning of IC24EXP. Safe. -/
  | expiryNotEnabled
  /-- LEDW with an LED extender card whose algorithm the spec does not have (42_led_alpha.md R193):
  raised by the meaning of LEDW. Safe. -/
  | ledCardUndocumented
  /-- TICK under a reel mode whose table the spec does not have (46_reel_meter_mux.md R269): raised
  by the meaning of TICK. Safe. -/
  | reelModeUndocumented
  deriving DecidableEq, Repr

/-! ## The units -/

/-- The strobe sequencer, IC23 and IC24 (10_state.md R30 to R34). A line is `true` when asserted. -/
structure Strobe where
  ga : Bool
  gb : Bool
  gc : Bool
  g1 : Bool
  g2a : Bool
  g2b : Bool
  column : BitVec 3
  strobeActive : Bool
  ic24Deadline : Option Nat
  deriving DecidableEq, Repr

/-- The lamp matrix driver (10_state.md R40 to R43). -/
structure LampUnit where
  lampLatchA : BitVec 3
  lampLatchB : BitVec 3
  scCol : BitVec 3
  scPhase : Fin 3
  lastB7 : Bool
  cardLive : Bool
  lamp : Memory Bool
  deriving DecidableEq, Repr

/-- The LED matrix and the alphanumeric link (10_state.md R44, R45). -/
structure LedUnit where
  led : Memory Byte
  led2 : Memory Byte
  alphaClk : Bool
  alphaDat : Bool
  deriving DecidableEq, Repr

/-- `chr_mode` (10_state.md R50). -/
inductive ChrMode where
  | idle
  | scanning
  deriving DecidableEq, Repr

/-- `chr_state` (10_state.md R51). -/
inductive ChrState where
  | uninit
  | running
  | exhausted
  deriving DecidableEq, Repr

/-- The characteriser, both variants (10_state.md R50 to R52). -/
structure ChrUnit where
  currentColumn : BitVec 6
  lampColumn : BitVec 3
  chrMode : ChrMode
  chrState : ChrState
  chrCounter : Fin 36
  initCol : Nat
  bwbReturn : Nat
  chrValue : Byte
  chrFaultLogged : Bool
  deriving DecidableEq, Repr

/-- The reel and meter multiplexer and the output latches (10_state.md R60 to R63). -/
structure ReelUnit where
  mmtrData : Byte
  triacData : Byte
  signal50Hz : Bool
  flutter : Bool
  deriving DecidableEq, Repr

/-- One session (00_scope.md R4). The last five fields are the model's own: the words the host has
issued and SCB has not taken (log 1), and, of the input scanner and of the characteriser apart, the
bytes their reads have given back, oldest first (log 10), and how many draws they have taken (log 7). -/
structure State where
  cfg : Cfg
  strobe : Strobe
  lamps : LampUnit
  leds : LedUnit
  chr : ChrUnit
  reel : ReelUnit
  now : Nat
  out : List Event
  stream : List OpWord
  inputReplies : List Byte
  chrReplies : List Byte
  inputDraws : Nat
  chrDraws : Nat
  deriving DecidableEq, Repr

/-! ## Reset values (10_state.md R68) -/

/-- 10_state.md R30 to R34: the enabling combination, column 0, no pulse. -/
def Strobe.atReset : Strobe :=
  { ga := false, gb := false, gc := false, g1 := true, g2a := false, g2b := false,
    column := 0, strobeActive := false, ic24Deadline := none }

/-- 10_state.md R40 to R43. -/
def LampUnit.atReset : LampUnit :=
  { lampLatchA := 0, lampLatchB := 0, scCol := 0, scPhase := 0, lastB7 := false,
    cardLive := false, lamp := [] }

/-- 10_state.md R44, R45. -/
def LedUnit.atReset : LedUnit := { led := [], led2 := [], alphaClk := false, alphaDat := false }

/-- 10_state.md R50 to R52. -/
def ChrUnit.atReset : ChrUnit :=
  { currentColumn := 0, lampColumn := 0, chrMode := .idle, chrState := .uninit, chrCounter := 0,
    initCol := 0, bwbReturn := 0, chrValue := 0x00, chrFaultLogged := false }

/-- 10_state.md R60 to R63. -/
def ReelUnit.atReset : ReelUnit :=
  { mmtrData := 0x00, triacData := 0x00, signal50Hz := false, flutter := false }

/-- The state load produces for a valid configuration (70_reset_and_hazards.md R310). -/
def State.fresh (cfg : Cfg) : State :=
  { cfg := cfg, strobe := .atReset, lamps := .atReset, leds := .atReset, chr := .atReset,
    reel := .atReset, now := 0, out := [], stream := [], inputReplies := [], chrReplies := [],
    inputDraws := 0, chrDraws := 0 }

/-- The machine right after reset, under the default configuration. DESIGN CHOICE (log 4): the
configuration has no reset value (10_state.md R20); the default one of 95_test_vectors.md is taken. -/
def State.reset : State := State.fresh Cfg.standard

end Sys2Proof.Machine
end

