-- ==== Sys2Proof/Machine/Ops.lean ====
section
/-! DEFINITION. The named operations every meaning is written over: cells, events, replies, draws, the
one condition an operation can raise, and the expiry of IC24. -/

namespace Sys2Proof.Machine

/-! ## Cells (20_memory.md R70) -/

/-- `MemRead`: the value at an address; an unlisted address reads as `blank`. -/
def Memory.read {β : Type} (blank : β) (m : Memory β) (a : Nat) : β :=
  match m with
  | [] => blank
  | p :: rest => if p.1 = a then p.2 else Memory.read blank rest a

/-- Puts an entry before the first entry of a higher address. -/
def Memory.place {β : Type} (m : Memory β) (a : Nat) (v : β) : Memory β :=
  match m with
  | [] => [(a, v)]
  | p :: rest => if a < p.1 then (a, v) :: p :: rest else p :: Memory.place rest a v

/-- `MemWrite` of one cell: writing `blank` removes the entry, so the canonical form is kept. -/
def Memory.write {β : Type} [DecidableEq β] (blank : β) (m : Memory β) (a : Nat) (v : β) :
    Memory β :=
  let others := m.filter fun p => p.1 ≠ a
  if v = blank then others else Memory.place others a v

/-- `for i in 0..n-1: lamp[base + i] <- data[i]`, ascending (41_lamp_matrix.md R162). -/
def Memory.writeBits {w : Nat} (m : Memory Bool) (base : Nat) (data : BitVec w) : Nat → Memory Bool
  | 0 => m
  | n + 1 => Memory.write lampOff (Memory.writeBits m base data n) (base + n) (data.getLsbD n)

/-- `lamp[k]`. -/
def State.lampAt (s : State) (k : Nat) : Bool := s.lamps.lamp.read lampOff k

/-- `led[n]`. -/
def State.ledAt (s : State) (n : Nat) : Byte := s.leds.led.read ledBlank n

/-- `led2[n]`. -/
def State.led2At (s : State) (n : Nat) : Byte := s.leds.led2.read ledBlank n

/-! ## Outputs and inputs -/

/-- `emit` (00_scope.md section 4): appends events to the output trace (10_state.md R66). -/
def State.emit (s : State) (events : List Event) : State := { s with out := s.out ++ events }

/-- `return v` of the input scanner: gives a byte back to the host (00_scope.md section 4; log 10). -/
def State.replyInput (s : State) (v : Byte) : State :=
  { s with inputReplies := s.inputReplies ++ [v] }

/-- `return v` of the characteriser (00_scope.md section 4; log 10). -/
def State.replyChr (s : State) (v : Byte) : State := { s with chrReplies := s.chrReplies ++ [v] }

/-- `draw` of the input scanner: moves on to its next free values (00_scope.md R6; log 7). -/
def State.drawnInput (s : State) : State := { s with inputDraws := s.inputDraws + 1 }

/-- `draw` of the characteriser (00_scope.md R6; log 7). -/
def State.drawnChr (s : State) : State := { s with chrDraws := s.chrDraws + 1 }

/-! ## The condition (44_characteriser_barcrest.md R233; 60_exceptions.md R281) -/

/-- `raise CharacteriserFault()`: SCB's only run-time condition, in the place where a processor takes an
exception. It logs once and the raising operation goes on; nothing is saved and control goes nowhere
(60_exceptions.md R289), so there is no return from it either. -/
def raiseCharacteriserFault (s : State) : State :=
  if s.chr.chrFaultLogged then s
  else
    { s.emit [.log .characteriserFault] with chr := { s.chr with chrFaultLogged := true } }

/-! ## IC23 and IC24 (40_strobe_sequencer.md R142, R151, R153) -/

/-- The column three gate lines select: `GC : GB : GA`, GA in bit 0 (30_encoding.md R113). -/
def gateColumn (gc gb ga : Bool) : BitVec 3 :=
  BitVec.ofBool gc ++ BitVec.ofBool gb ++ BitVec.ofBool ga

/-- `recompute()` (40_strobe_sequencer.md R142): inhibit dominance, then the gates, then hold. -/
def Strobe.recompute (u : Strobe) : Strobe :=
  if u.g2a || u.g2b then { u with column := 0 }
  else if u.g1 then { u with column := gateColumn u.gc u.gb u.ga }
  else u

/-- `ic24_trigger()` at virtual time `now` (40_strobe_sequencer.md R151). A pending deadline is
replaced (R152). -/
def Strobe.trigger (cfg : Cfg) (now : Nat) (u : Strobe) : Strobe :=
  { u with
    strobeActive := true
    ic24Deadline := some (now + cfg.tIc24)
    g2a := if cfg.ic24CouplesG2A then false else u.g2a }

/-- The effect of IC24EXP (40_strobe_sequencer.md R153). -/
def Strobe.expire (cfg : Cfg) (u : Strobe) : Strobe :=
  Strobe.recompute
    { u with
      strobeActive := false
      ic24Deadline := none
      g2a := if cfg.ic24CouplesG2A then true else u.g2a }

/-- IC24's step is enabled: a deadline is pending and virtual time has reached it
(60_exceptions.md R287). -/
def expiryDue (s : State) : Bool :=
  match s.strobe.ic24Deadline with
  | none => false
  | some d => decide (d ≤ s.now)

/-- IC24 takes its step (40_strobe_sequencer.md R153). -/
def ic24Expire (s : State) : State := { s with strobe := s.strobe.expire s.cfg }

/-! ## The host's stream (00_scope.md R7; log 1) -/

/-- The host issues one more word. -/
def State.issue (s : State) (w : OpWord) : State := { s with stream := s.stream ++ [w] }

/-- The next word of the host's stream and the state in which SCB has taken it; none when the host has
issued no further operation. -/
def takeOperation (s : State) : Option (OpWord × State) :=
  match s.stream with
  | [] => none
  | w :: rest => some (w, { s with stream := rest })

/-- SCB with no operation to take holds its state (60_exceptions.md R295; 70_reset_and_hazards.md R313,
R319). -/
def idleStep (s : State) : State := s

/-- The state in which the next step runs the operation of `w`: the host issues it next, once no expiry
is due. IC24EXP is no word of the host's (30_encoding.md R103), so its word makes IC24's turn come: the
pulse is running and its deadline is now (log 2). -/
def placeOperation (s : State) (w : OpWord) : State :=
  if w = encode .ic24exp then
    { s with strobe := { s.strobe with strobeActive := true, ic24Deadline := some s.now } }
  else
    let settled := if expiryDue s then ic24Expire s else s
    { settled with stream := w :: settled.stream }

end Sys2Proof.Machine
end

