-- ==== Sys2Proof/Machine/Flags.lean ====
section
/-! DEFINITION. The state-machine booleans and enumerations that stand in the place of flags
(10_state.md R69): SCB has no condition codes. -/

namespace Sys2Proof.Machine

/-- A line goes from deasserted to asserted (40_strobe_sequencer.md R143; 42_led_alpha.md R195). -/
def risingEdge (old level : Bool) : Bool := !old && level

/-- `card_live`: strobe-active and bank-bit-toggled (41_lamp_matrix.md R176). -/
def cardLiveNext (strobeActive lastB7 b7 : Bool) : Bool := strobeActive && (b7 != lastB7)

/-- `chr_mode` after a call at offset 0 (44_characteriser_barcrest.md R229). -/
def chrModeNext (call : Byte) : ChrMode := if call = 0 then .idle else .scanning

/-- `chr_state` and `chr_counter` after a base access (45_characteriser_bwb.md R242). -/
def baseAccessNext (state : ChrState) (counter : Fin 36) : ChrState × Fin 36 :=
  if state = .uninit then (.running, 0) else (state, counter)

/-- `chr_state` and `chr_counter` after a read that advances the counter, up to its ceiling of 35
(45_characteriser_bwb.md R250). -/
def counterNext (state : ChrState) (counter : Fin 36) : ChrState × Fin 36 :=
  if h : counter.val < 35 then
    (if counter.val + 1 = 35 then .exhausted else state, ⟨counter.val + 1, by omega⟩)
  else (state, counter)

/-- `sc_phase` counts 0, 1, 2 and wraps (41_lamp_matrix.md R172). -/
def phaseNext (phase : Fin 3) : Fin 3 := phase + 1

end Sys2Proof.Machine
end

