-- ==== Sys2Proof/Machine/Operands.lean ====
section
/-! DEFINITION. How data bytes and offsets are cut into fields (30_encoding.md part 2) and where the
cells of each unit lie (20_memory.md R71, R72). -/

namespace Sys2Proof.Machine

/-! ## Cell addresses (20_memory.md R71, R72) -/

/-- The first cell of column `c` on lamp port A: `8*c`. -/
def portABase (c : BitVec 3) : Nat := 8 * c.toNat

/-- The first cell of column `c` on lamp port B: `64 + 8*c`. -/
def portBBase (c : BitVec 3) : Nat := 64 + 8 * c.toNat

/-- The first cell of column `c` on the small card: `128 + 8*c`. -/
def smallCardBase (c : BitVec 3) : Nat := 128 + 8 * c.toNat

/-- The first cell of column `c` in a bank of a large card: `128 + 64*bank + 8*c`. -/
def largeCardBase (bank : Bool) (c : BitVec 3) : Nat := 128 + 64 * bank.toNat + 8 * c.toNat

/-- The secondary LED position of a bank and a column: `8*bank + column` (41_lamp_matrix.md R182). -/
def led2Index (bank : Bool) (c : BitVec 3) : Nat := 8 * bank.toNat + c.toNat

/-- The digit a column drives (42_led_alpha.md R191). -/
def ledDigit (wiring : LedWiring) (c : BitVec 3) : Nat :=
  match wiring with
  | .reversed => 7 - c.toNat
  | .direct => c.toNat

/-! ## Extension card bytes (30_encoding.md R114, R115) -/

/-- `data[2:0]`, the small card's own column. -/
def smallCardColumn (data : Byte) : BitVec 3 := data.extractLsb' 0 3

/-- `value = 0x1F - data[7:3]`. -/
def smallCardValue (data : Byte) : BitVec 5 := 0x1F#5 - data.extractLsb' 3 5

/-- `data[7]`, the bank bit. -/
def bankBit (data : Byte) : Bool := data.getLsbD 7

/-! ## `aux_compose` (43_input_scanner.md R209) -/

/-- `aux_compose` as the configuration's list of cases gives it: the first case of these arguments;
without one the default, the projection on the byte (log 6). -/
def composeAux (cases : List AuxCase) (port : AuxPort) (source : Byte) (pocket : Fin 12) : Byte :=
  match cases.find? fun c => c.port == port && c.source == source && c.pocket == pocket with
  | some c => c.result
  | none => source

/-- The list of cases of any composition a host may supply. -/
def tabulateAux (f : AuxPort → Byte → Fin 12 → Byte) : List AuxCase :=
  [AuxPort.aux1, AuxPort.aux2].flatMap fun port =>
    (List.finRange 256).flatMap fun source =>
      (List.finRange 12).map fun pocket =>
        { port, source := BitVec.ofFin source, pocket, result := f port (BitVec.ofFin source) pocket }

/-! ## Characteriser calls and offsets (30_encoding.md R116 to R118) -/

/-- The fixed table of squared values (30_encoding.md R116). -/
def squaresTable : List Byte := [0x00, 0x01, 0x04, 0x09, 0x10, 0x19, 0x24, 0x31]

/-- The lamp column a call at offset 2 selects; none when the call is unrecognised. -/
def lampColumnOfCall (call : Byte) : Option (BitVec 3) :=
  (squaresTable.findIdx? fun b => b == call).map fun n => BitVec.ofNat 3 n

/-- The forward scan (44_characteriser_barcrest.md R223): the first row of `start .. 63` whose `call`
equals the written byte. -/
def scanForward (tbl : Vector ChrRow 72) (start : BitVec 6) (call : Byte) : Option (BitVec 6) :=
  ((List.finRange 64).find? fun i =>
    decide (start.toNat ≤ i.val) && (tbl[i.val]'(Nat.lt_trans i.isLt (by decide))).call == call).map
      fun i => BitVec.ofNat 6 i.val

/-- `tbl[current_column].response` (44_characteriser_barcrest.md R226). -/
def mainResponse (tbl : Vector ChrRow 72) (c : BitVec 6) : Byte :=
  (tbl[c.toNat]'(Nat.lt_trans c.isLt (by decide))).response

/-- `tbl[lamp_column + 64].response` (44_characteriser_barcrest.md R227). -/
def lampResponse (tbl : Vector ChrRow 72) (c : BitVec 3) : Byte :=
  (tbl[c.toNat + 64]'(by have := c.isLt; omega)).response

/-- The base access of a BwB write: `(offset & 0x3f) = 0` (30_encoding.md R118). -/
def isBaseOffset (offset : Byte) : Bool := offset &&& 0x3F == 0

/-- The least index of the common call table that holds the call (45_characteriser_bwb.md R244). -/
def commonCallIndex (t : BwbTables) (call : Byte) : Option Nat :=
  t.commonCall.toList.findIdx? fun b => b == call

/-- The five checkpoint values of the BwB read counter (45_characteriser_bwb.md R249). -/
def checkpoints : List Nat := [6, 13, 20, 27, 34]

/-- The per-game response of a checkpoint, row `(chr_counter + 1) / 7 - 1`; none elsewhere
(45_characteriser_bwb.md R249). -/
def checkpointResponse (t : BwbTables) (counter : Fin 36) : Option Byte :=
  if counter.val ∈ checkpoints then
    some (t.gameResp[(counter.val + 1) / 7 - 1]'(by have := counter.isLt; omega))
  else none

/-! ## The meter-drive byte (30_encoding.md R119; 46_reel_meter_mux.md R265 to R269) -/

/-- `(d & 1) + ((d & 8) >> 2) + ((d & 0x20) >> 3) + ((d & 0x80) >> 4)` (46_reel_meter_mux.md R266). -/
def reelNibble (d : Byte) : BitVec 4 :=
  ((d &&& 1) + ((d &&& 8) >>> 2) + ((d &&& 0x20) >>> 3) + ((d &&& 0x80) >>> 4)).truncate 4

/-- The eight calls of the meter model, in ascending order (46_reel_meter_mux.md R268). -/
def meterPulses (m : Byte) : List Event :=
  (List.finRange 8).map fun i => .meterPulse i (m.getLsbD i.val)

/-- `mode_update`: the byte the meters see, the stepper events and the new `flutter`; none for a mode
whose table the spec does not have (46_reel_meter_mux.md R265 to R267, R269). -/
def modeUpdate (cfg : Cfg) (flutter : Bool) (d : Byte) : Option (Byte × List Event × Bool) :=
  match cfg.reelMode with
  | .standardReel => some (d, [], flutter)
  | .fiveReel8To5 => some (d &&& 0x56, [.stepperUpdate cfg.reel5Index (reelNibble d)], flutter)
  | .flutterbox => some (d &&& 0x7F, [], d.getLsbD 7)
  | .fiveReel5To8 => none
  | .fiveReel3To6 => none
  | .sixReel1To8 => none
  | .sixReel5To8 => none
  | .sevenReel => none

end Sys2Proof.Machine
end

