-- ==== Sys2Proof/Machine/Barcrest.lean ====
section
/-! DEFINITION. The characteriser, Barcrest variant, and the fallback without a table
(44_characteriser_barcrest.md). -/

namespace Sys2Proof.Machine

/-- The call at offset 0 (44_characteriser_barcrest.md R222, R223): zero resets the position, any
other call scans forward from it; without a match the position stays. -/
def barcrestCall (tbl : Vector ChrRow 72) (call : Byte) (u : ChrUnit) : ChrUnit :=
  { u with
    currentColumn :=
      if call = 0 then 0 else (scanForward tbl u.currentColumn call).getD u.currentColumn
    chrMode := chrModeNext call }

/-- The call at offset 2 (44_characteriser_barcrest.md R224). -/
def lampCall (call : Byte) (u : ChrUnit) : ChrUnit :=
  { u with lampColumn := (lampColumnOfCall call).getD u.lampColumn }

/-- CHRW under BARCREST, by offset; a write elsewhere has no effect (44_characteriser_barcrest.md R225). -/
def barcrestWrite (tbl : Vector ChrRow 72) (offset call : Byte) (s : State) : State :=
  if offset = 0 then { s with chr := barcrestCall tbl call s.chr }
  else if offset = 2 then { s with chr := lampCall call s.chr }
  else s

/-- CHRR under BARCREST, by offset (44_characteriser_barcrest.md R226 to R228). -/
def barcrestRead (tbl : Vector ChrRow 72) (offset : Byte) (s : State) : State :=
  if offset = 0 then s.replyChr (mainResponse tbl s.chr.currentColumn)
  else if offset = 3 then s.replyChr (lampResponse tbl s.chr.lampColumn)
  else s.replyChr 0

/-- CHRW under NONE, at every offset (44_characteriser_barcrest.md R230). -/
def fallbackWrite (s : State) : State := raiseCharacteriserFault s

/-- CHRR under NONE, at every offset (44_characteriser_barcrest.md R232): the condition, then the
program-memory byte at the CPU's index register, both from outside (log 8). -/
def fallbackRead (s : State) : State :=
  (raiseCharacteriserFault s).drawnChr.replyChr
    (Config.programMemory s.chrDraws (Config.cpuIndexRegister s.chrDraws))

end Sys2Proof.Machine
end

