-- ==== Sys2Proof/Machine/Bwb.lean ====
section
/-! DEFINITION. The characteriser, BwB variant (45_characteriser_bwb.md). -/

namespace Sys2Proof.Machine

/-- A base access of a write (45_characteriser_bwb.md R242, R243). -/
def bwbBaseAccess (call : Byte) (u : ChrUnit) : ChrUnit :=
  { u with
    chrState := (baseAccessNext u.chrState u.chrCounter).1
    chrCounter := (baseAccessNext u.chrState u.chrCounter).2
    initCol := if call = 0 then u.initCol + 1 else 0 }

/-- A common call (45_characteriser_bwb.md R244): the response at index `r`, which is free past the end
of the sequence (R245; log 9). -/
def bwbRespond (t : BwbTables) (r : Nat) (s : State) : State :=
  if h : r < 5 then
    { s with chr := { s.chr with chrValue := t.commonResp[r], bwbReturn := r + 1 } }
  else
    State.drawnChr
      { s with chr := { s.chr with chrValue := Config.bwbPastEnd s.chrDraws, bwbReturn := r + 1 } }

/-- An unmatched call (45_characteriser_bwb.md R246): a free byte (log 9). -/
def bwbNoiseCall (s : State) : State :=
  State.drawnChr { s with chr := { s.chr with chrValue := Config.bwbNoise s.chrDraws } }

/-- The common scan, on every write (45_characteriser_bwb.md R241, R244): a match on entry 0 resets
`bwb_return` before it is used. -/
def bwbScan (t : BwbTables) (call : Byte) (s : State) : State :=
  match commonCallIndex t call with
  | none => bwbNoiseCall s
  | some x => bwbRespond t (if x = 0 then 0 else s.chr.bwbReturn) s

/-- CHRW under BWB (45_characteriser_bwb.md R241). -/
def bwbWrite (t : BwbTables) (offset call : Byte) (s : State) : State :=
  bwbScan t call
    (if isBaseOffset offset then { s with chr := bwbBaseAccess call s.chr } else s)

/-- The read counter moves on (45_characteriser_bwb.md R250). -/
def bwbAdvance (u : ChrUnit) : ChrUnit :=
  { u with
    chrState := (counterNext u.chrState u.chrCounter).1
    chrCounter := (counterNext u.chrState u.chrCounter).2 }

/-- CHRR under BWB (45_characteriser_bwb.md R248 to R251). A checkpoint read moves the counter only
under `BWB_CHECKPOINT_ADVANCES`. -/
def bwbRead (t : BwbTables) (offset : Byte) (s : State) : State :=
  if offset = 0 then
    match checkpointResponse t s.chr.chrCounter with
    | some v =>
      (if s.cfg.bwbCheckpointAdvances then { s with chr := bwbAdvance s.chr } else s).replyChr v
    | none => State.replyChr { s with chr := bwbAdvance s.chr } s.chr.chrValue
  else s.replyChr s.chr.chrValue

end Sys2Proof.Machine
end

