-- ==== Sys2Proof/Machine/Characteriser.lean ====
section
/-! DEFINITION. CHRW and CHRR: the variant `CFG.chr` names (44_characteriser_barcrest.md R220). -/

namespace Sys2Proof.Machine

/-- CHRW (44_characteriser_barcrest.md R220; 30_encoding.md R112). -/
def execChrw (offset call : Byte) (s : State) : Host.Outcome State Fault Refusal :=
  match s.cfg.chr with
  | .none => .next (fallbackWrite s)
  | .barcrest tbl => .next (barcrestWrite tbl offset call s)
  | .bwb t => .next (bwbWrite t offset call s)

/-- CHRR (44_characteriser_barcrest.md R220; 30_encoding.md R112). -/
def execChrr (offset : Byte) (s : State) : Host.Outcome State Fault Refusal :=
  match s.cfg.chr with
  | .none => .next (fallbackRead s)
  | .barcrest tbl => .next (barcrestRead tbl offset s)
  | .bwb t => .next (bwbRead t offset s)

end Sys2Proof.Machine
end

