-- ==== Sys2Proof/Machine/Input.lean ====
section
/-! DEFINITION. The input-strobe scanner (43_input_scanner.md). Its inputs are draws (10_state.md R67;
log 7). -/

namespace Sys2Proof.Machine

/-- INREAD (43_input_scanner.md R206): `IN[column]`, inside the pulse or out of it. -/
def execInread (s : State) : Host.Outcome State Fault Refusal :=
  .next (s.drawnInput.replyInput (Config.inputPort s.inputDraws s.strobe.column))

/-- `aux_compose(which, AUXn, gamball)` on the bytes and the pocket of this read
(43_input_scanner.md R209, R211). -/
def auxByte (port : AuxPort) (s : State) : Byte :=
  composeAux s.cfg.auxCompose port (Config.auxSource s.inputDraws port)
    (Config.gamballPocket s.inputDraws)

/-- AUX1R (43_input_scanner.md R208). -/
def execAux1r (s : State) : Host.Outcome State Fault Refusal :=
  .next (s.drawnInput.replyInput (auxByte .aux1 s))

/-- AUX2R (43_input_scanner.md R210). -/
def execAux2r (s : State) : Host.Outcome State Fault Refusal :=
  .next (s.drawnInput.replyInput (auxByte .aux2 s))

end Sys2Proof.Machine
end

