-- ==== Sys2Proof/Machine/Lamp.lean ====
section
/-! DEFINITION. The lamp matrix driver: the two baseline ports and the extension card
(41_lamp_matrix.md). -/

namespace Sys2Proof.Machine

/-- LAMPA (41_lamp_matrix.md R162): eight cells at the column's group of port A, or nothing when the
port already latched this column. -/
def execLampa (data : Byte) (s : State) : Host.Outcome State Fault Refusal :=
  if s.strobe.column ≠ s.lamps.lampLatchA then
    .next { s with
      lamps := { s.lamps with
        lamp := s.lamps.lamp.writeBits (portABase s.strobe.column) data 8
        lampLatchA := s.strobe.column } }
  else .next s

/-- LAMPB (41_lamp_matrix.md R163). -/
def execLampb (data : Byte) (s : State) : Host.Outcome State Fault Refusal :=
  if s.strobe.column ≠ s.lamps.lampLatchB then
    .next { s with
      lamps := { s.lamps with
        lamp := s.lamps.lamp.writeBits (portBBase s.strobe.column) data 8
        lampLatchB := s.strobe.column } }
  else .next s

/-- The phase a small-card write is tested at: a column change restarts the cycle
(41_lamp_matrix.md R172). -/
def smallCardPhase (u : LampUnit) (data : Byte) : Fin 3 :=
  if smallCardColumn data ≠ u.scCol then 0 else u.scPhase

/-- LAMPX under SMALL_CARD (41_lamp_matrix.md R172). -/
def smallCardWrite (cfg : Cfg) (data : Byte) (u : LampUnit) : LampUnit :=
  let phase := smallCardPhase u data
  { u with
    scCol := smallCardColumn data
    scPhase := phaseNext phase
    lamp :=
      if phase = cfg.smallCardCommitPhase then
        u.lamp.writeBits (smallCardBase (smallCardColumn data)) (smallCardValue data) 5
      else u.lamp }

/-- `large_card(data)` (41_lamp_matrix.md R176): the bank is the old bank bit. -/
def largeCardWrite (strobe : Strobe) (data : Byte) (u : LampUnit) : LampUnit :=
  let live := cardLiveNext strobe.strobeActive u.lastB7 (bankBit data)
  { u with
    cardLive := live
    lastB7 := bankBit data
    lamp :=
      if live then u.lamp.writeBits (largeCardBase u.lastB7 strobe.column) data 7 else u.lamp }

/-- LAMPX under LARGE_CARD_A and LARGE_CARD_C (41_lamp_matrix.md R177, R179). -/
def largeCardLamps (data : Byte) (s : State) : State :=
  { s with lamps := largeCardWrite s.strobe data s.lamps }

/-- LAMPX under LARGE_CARD_B: the lamps, then the secondary LED position of the same old bank
(41_lamp_matrix.md R181, R182). -/
def largeCardLampsAndLed (data : Byte) (s : State) : State :=
  let t := largeCardLamps data s
  if s.strobe.strobeActive && t.lamps.cardLive then
    { t with
      leds := { t.leds with
        led2 := t.leds.led2.write ledBlank (led2Index s.lamps.lastB7 s.strobe.column) (~~~data) } }
  else t

/-- LAMPX (41_lamp_matrix.md R170): the algorithm `CFG.lamp_extender_kind` selects. -/
def execLampx (data : Byte) (s : State) : Host.Outcome State Fault Refusal :=
  match s.cfg.lampExtender with
  | .none => .next s
  | .smallCard => .next { s with lamps := smallCardWrite s.cfg data s.lamps }
  | .largeCardA => .next (largeCardLamps data s)
  | .largeCardB => .next (largeCardLampsAndLed data s)
  | .largeCardC => .next (largeCardLamps data s)

end Sys2Proof.Machine
end

