-- ==== Sys2Proof/Machine/Led.lean ====
section
/-! DEFINITION. The LED matrix driver and the alphanumeric link (42_led_alpha.md). -/

namespace Sys2Proof.Machine

/-- LEDW without a card (42_led_alpha.md R191): the cell stores the complement (R192). -/
def ledWrite (data : Byte) (s : State) : State :=
  { s with
    leds := { s.leds with
      led := s.leds.led.write ledBlank (ledDigit s.cfg.ledWiring s.strobe.column) (~~~data) } }

/-- LEDW (42_led_alpha.md R191, R193): refused under a card whose algorithm the spec does not have. -/
def execLedw (data : Byte) (s : State) : Host.Outcome State Fault Refusal :=
  match s.cfg.ledExtender with
  | .none => .next (ledWrite data s)
  | .cardA => .refused .ledCardUndocumented
  | .cardB => .refused .ledCardUndocumented

/-- ALPHACLK (42_led_alpha.md R195): a rising edge sends the present data level. -/
def execAlphaclk (level : Bool) (s : State) : Host.Outcome State Fault Refusal :=
  let clocked := { s with leds := { s.leds with alphaClk := level } }
  .next (if risingEdge s.leds.alphaClk level then clocked.emit [.alphaBit s.leds.alphaDat]
    else clocked)

/-- ALPHADAT (42_led_alpha.md R196). -/
def execAlphadat (level : Bool) (s : State) : Host.Outcome State Fault Refusal :=
  .next { s with leds := { s.leds with alphaDat := level } }

end Sys2Proof.Machine
end

