-- ==== Sys2Proof/Machine/Reel.lean ====
section
/-! DEFINITION. The reel and meter multiplexer, the tick and the triac port (46_reel_meter_mux.md). -/

namespace Sys2Proof.Machine

/-- METERW (46_reel_meter_mux.md R261): latched for the next tick. -/
def execMeterw (data : Byte) (s : State) : Host.Outcome State Fault Refusal :=
  .next { s with reel := { s.reel with mmtrData := data } }

/-- TRIACW (46_reel_meter_mux.md R262): latched, with no further effect. -/
def execTriacw (data : Byte) (s : State) : Host.Outcome State Fault Refusal :=
  .next { s with reel := { s.reel with triacData := data } }

/-- TICK (46_reel_meter_mux.md R264, R270): the mains line, the stepper and the meters, in this order
and in one step; refused under a mode whose table the spec does not have (R269). -/
def execTick (s : State) : Host.Outcome State Fault Refusal :=
  match modeUpdate s.cfg s.reel.flutter s.reel.mmtrData with
  | none => .refused .reelModeUndocumented
  | some (meters, steppers, flutter) =>
    .next (State.emit
      { s with reel := { s.reel with signal50Hz := !s.reel.signal50Hz, flutter := flutter } }
      (.mainsLine (!s.reel.signal50Hz) :: steppers ++ meterPulses meters))

end Sys2Proof.Machine
end

