-- ==== Sys2Proof/Machine/Session.lean ====
section
/-! DEFINITION. Load, RESET and WAIT (70_reset_and_hazards.md). -/

namespace Sys2Proof.Machine

/-! ## Load (70_reset_and_hazards.md R310, R311; 60_exceptions.md R282) -/

/-- A field that must be one of its set. -/
def checkKnown {α : Type} (field : CfgField) (v : Option α) : Except Fault α :=
  match v with
  | some a => .ok a
  | none => .error (.configurationError field)

/-- A table that must have exactly `n` entries. -/
def checkTable {α : Type} (n : Nat) (rows : List α) : Except Fault (Vector α n) :=
  if h : rows.length = n then .ok ⟨rows.toArray, by simpa using h⟩
  else .error (.configurationError .chr)

/-- A BwB table that must be present and have exactly `n` entries. -/
def checkBwbTable (n : Nat) (rows : Option (List Byte)) : Except Fault (Vector Byte n) :=
  match rows with
  | some bytes => checkTable n bytes
  | none => .error (.configurationError .chr)

/-- `CFG.chr` well formed: NONE; 72 rows; three tables of lengths 4, 5, 5. -/
def checkChr (r : RawChr) : Except Fault ChrConfig :=
  match r with
  | .none => .ok .none
  | .barcrest rows => (checkTable 72 rows).map .barcrest
  | .bwb calls common game => do
    let commonCall ← checkBwbTable 4 calls
    let commonResp ← checkBwbTable 5 common
    let gameResp ← checkBwbTable 5 game
    return .bwb { commonCall, commonResp, gameResp }

/-- `T_IC24 > 0`. -/
def checkPulse (t : Nat) : Except Fault Nat :=
  if t = 0 then .error (.configurationError .tIc24) else .ok t

/-- `SMALL_CARD_COMMIT_PHASE` in 0..2. -/
def checkPhase (p : Nat) : Except Fault (Fin 3) :=
  if h : p < 3 then .ok ⟨p, h⟩ else .error (.configurationError .smallCardCommitPhase)

/-- `REEL5_INDEX` a natural number (DEDUCED, log 15). -/
def checkReelIndex (i : Int) : Except Fault Nat :=
  if i < 0 then .error (.configurationError .reel5Index) else .ok i.toNat

/-- Validation, in the order of 70_reset_and_hazards.md R311: the first failing check is reported. -/
def validate (r : RawCfg) : Except Fault Cfg := do
  let lampExtender ← checkKnown .lampExtenderKind r.lampExtender
  let ledExtender ← checkKnown .ledExtenderKind r.ledExtender
  let reelMode ← checkKnown .reelMultiplexMode r.reelMode
  let chr ← checkChr r.chr
  let tIc24 ← checkPulse r.tIc24
  let ledWiring ← checkKnown .ledWiring r.ledWiring
  let smallCardCommitPhase ← checkPhase r.smallCardCommitPhase
  let reel5Index ← checkReelIndex r.reel5Index
  return {
    reelCount := r.reelCount, reelMode, lampExtender, ledExtender, chr, tIc24,
    ic24CouplesG2A := r.ic24CouplesG2A, ledWiring, smallCardCommitPhase, reel5Index,
    auxCompose := r.auxCompose,
    bwbCheckpointAdvances := r.bwbCheckpointAdvances }

/-- Load: a session, or ConfigurationError and no session (70_reset_and_hazards.md R310). -/
def State.load (r : RawCfg) : Except Fault State := (validate r).map State.fresh

/-! ## RESET (70_reset_and_hazards.md R312) -/

/-- RESET: every unit to its reset value; the configuration, the clock and the output trace stay, and
so do the model's own stream, replies and draw counts (log 18). -/
def execReset (s : State) : Host.Outcome State Fault Refusal :=
  .next { s with
    strobe := .atReset, lamps := .atReset, leds := .atReset, chr := .atReset, reel := .atReset }

/-! ## WAIT (70_reset_and_hazards.md R318) -/

/-- The one expiry a wait to `target` can take, at its own instant. -/
def expireBy (target : Nat) (s : State) : State :=
  match s.strobe.ic24Deadline with
  | none => s
  | some d => if d ≤ target then ic24Expire { s with now := d } else s

/-- WAIT (70_reset_and_hazards.md R318): virtual time moves on, past at most one expiry. -/
def execWait (n : BitVec 16) (s : State) : Host.Outcome State Fault Refusal :=
  .next { expireBy (s.now + n.toNat) s with now := s.now + n.toNat }

end Sys2Proof.Machine
end

