-- ==== Sys2Proof/Machine/Strobe.lean ====
section
/-! DEFINITION. The strobe sequencer: SETGATE, SETINH and the expiry of IC24
(40_strobe_sequencer.md). -/

namespace Sys2Proof.Machine

/-- The gate-A write on the sequencer: trigger on a rise, then recompute (40_strobe_sequencer.md R143). -/
def Strobe.setGateA (cfg : Cfg) (now : Nat) (level : Bool) (u : Strobe) : Strobe :=
  let latched := { u with ga := level }
  Strobe.recompute (if risingEdge u.ga level then latched.trigger cfg now else latched)

/-- SETGATE.A (40_strobe_sequencer.md R143). -/
def execSetgateA (level : Bool) (s : State) : Host.Outcome State Fault Refusal :=
  .next { s with strobe := s.strobe.setGateA s.cfg s.now level }

/-- SETGATE.B (40_strobe_sequencer.md R144). -/
def execSetgateB (level : Bool) (s : State) : Host.Outcome State Fault Refusal :=
  .next { s with strobe := Strobe.recompute { s.strobe with gb := level } }

/-- SETGATE.C (40_strobe_sequencer.md R145). -/
def execSetgateC (level : Bool) (s : State) : Host.Outcome State Fault Refusal :=
  .next { s with strobe := Strobe.recompute { s.strobe with gc := level } }

/-- SETINH.G1 (40_strobe_sequencer.md R146). -/
def execSetinhG1 (level : Bool) (s : State) : Host.Outcome State Fault Refusal :=
  .next { s with strobe := Strobe.recompute { s.strobe with g1 := level } }

/-- SETINH.G2A (40_strobe_sequencer.md R147). -/
def execSetinhG2A (level : Bool) (s : State) : Host.Outcome State Fault Refusal :=
  .next { s with strobe := Strobe.recompute { s.strobe with g2a := level } }

/-- SETINH.G2B (40_strobe_sequencer.md R148). -/
def execSetinhG2B (level : Bool) (s : State) : Host.Outcome State Fault Refusal :=
  .next { s with strobe := Strobe.recompute { s.strobe with g2b := level } }

/-- IC24EXP (40_strobe_sequencer.md R153; 60_exceptions.md R287): the step of the IC24 agent. While no
expiry is due the event cannot occur, and the model refuses it (log 3). -/
def execIc24exp (s : State) : Host.Outcome State Fault Refusal :=
  if expiryDue s then .next (ic24Expire s) else .refused .expiryNotEnabled

end Sys2Proof.Machine
end

