-- ==== Sys2Proof/Machine/Dispatch.lean ====
section
/-! DEFINITION. The meaning of each operation: one arm per row of the operation map
(30_encoding.md R102). -/

namespace Sys2Proof.Machine

def exec (i : Instr) (s : State) : Host.Outcome State Fault Refusal :=
  match i with
  | .setgateA level => Sys2Proof.Machine.execSetgateA level s
  | .setgateB level => Sys2Proof.Machine.execSetgateB level s
  | .setgateC level => Sys2Proof.Machine.execSetgateC level s
  | .setinhG1 level => Sys2Proof.Machine.execSetinhG1 level s
  | .setinhG2A level => Sys2Proof.Machine.execSetinhG2A level s
  | .setinhG2B level => Sys2Proof.Machine.execSetinhG2B level s
  | .lampa data => Sys2Proof.Machine.execLampa data s
  | .lampb data => Sys2Proof.Machine.execLampb data s
  | .lampx data => Sys2Proof.Machine.execLampx data s
  | .ledw data => Sys2Proof.Machine.execLedw data s
  | .alphaclk level => Sys2Proof.Machine.execAlphaclk level s
  | .alphadat level => Sys2Proof.Machine.execAlphadat level s
  | .inread => Sys2Proof.Machine.execInread s
  | .aux1r => Sys2Proof.Machine.execAux1r s
  | .aux2r => Sys2Proof.Machine.execAux2r s
  | .chrw offset call => Sys2Proof.Machine.execChrw offset call s
  | .chrr offset => Sys2Proof.Machine.execChrr offset s
  | .meterw data => Sys2Proof.Machine.execMeterw data s
  | .triacw data => Sys2Proof.Machine.execTriacw data s
  | .tick => Sys2Proof.Machine.execTick s
  | .reset => Sys2Proof.Machine.execReset s
  | .wait n => Sys2Proof.Machine.execWait n s
  | .ic24exp => Sys2Proof.Machine.execIc24exp s

end Sys2Proof.Machine
end

