-- ==== Sys2Proof/Machine/Step.lean ====
section
/-! DEFINITION. One step of SCB (00_scope.md R7): IC24's when its expiry is due, else the next
operation of the host's stream. -/

namespace Sys2Proof.Machine

/-- IC24 goes first (60_exceptions.md R287); then the host's next word; a word that is no operation of
a host program is refused (30_encoding.md R103, R111); with no word left SCB holds its state. -/
def step (s : State) : Host.Outcome State Fault Refusal :=
  if expiryDue s then exec .ic24exp s
  else
    match takeOperation s with
    | none => .next (idleStep s)
    | some (w, t) =>
      match decodeHost w with
      | .error e => .refused (.invalidWord e)
      | .ok i => exec i t

/-- The state in which the very next step runs the operation whose bits are `w` (log 1, 2). -/
def State.withFetchWord (s : State) (nbits w : Nat) : State :=
  placeOperation s (BitVec.ofNat 24 (w % 2 ^ nbits))

end Sys2Proof.Machine
end

