-- ==== Sys2Proof/Safety.lean ====
section
/-! DEFINITION. Runs of operations, the states a session can be in, and what counts as a sound state. -/

namespace Sys2Proof.Machine

/-- A list of operations, one after another, stopping at the first fault or refusal (20_memory.md R85). -/
def execAll : List Instr → State → Host.Outcome State Fault Refusal
  | [], s => .next s
  | i :: rest, s =>
    match exec i s with
    | .next t => execAll rest t
    | .fault f => .fault f
    | .refused r => .refused r

/-- A cell the configuration uses (20_memory.md R71): the baseline matrix always, five lines a column
on a small card, seven lines a column in each bank of a large card. -/
def lampCellUsed (kind : LampExtenderKind) (k : Nat) : Prop :=
  match kind with
  | .none => k < 128
  | .smallCard => k < 128 ∨ (k < 192 ∧ k % 8 < 5)
  | .largeCardA => k < 128 ∨ (k < 256 ∧ k % 8 < 7)
  | .largeCardB => k < 128 ∨ (k < 256 ∧ k % 8 < 7)
  | .largeCardC => k < 128 ∨ (k < 256 ∧ k % 8 < 7)

/-- The cell arrays are in their canonical form and list only cells that exist and that the
configuration uses (20_memory.md R70, R71). -/
structure State.CellsSound (s : State) : Prop where
  lampForm : Memory.wf lampOff s.lamps.lamp
  ledForm : Memory.wf ledBlank s.leds.led
  led2Form : Memory.wf ledBlank s.leds.led2
  lampUsed : ∀ p ∈ s.lamps.lamp, lampCellUsed s.cfg.lampExtender p.1
  ledRange : ∀ p ∈ s.leds.led, p.1 < 8
  led2Range : ∀ p ∈ s.leds.led2, p.1 < 16
  led2Owner : s.cfg.lampExtender ≠ .largeCardB → s.leds.led2 = []

/-- The column is what the six lines make of it (40_strobe_sequencer.md R154, R155). While G1 is
deasserted and no inhibit is asserted it is held, and any value is sound. -/
structure State.ColumnSound (s : State) : Prop where
  inhibited : s.strobe.g2a = true ∨ s.strobe.g2b = true → s.strobe.column = 0
  decoded : s.strobe.g2a = false → s.strobe.g2b = false → s.strobe.g1 = true →
    s.strobe.column.toNat = 4 * s.strobe.gc.toNat + 2 * s.strobe.gb.toNat + s.strobe.ga.toNat

/-- A pulse runs exactly while a deadline is pending, and a pending deadline lies ahead
(10_state.md R34; 70_reset_and_hazards.md R318). -/
structure State.TimerSound (s : State) : Prop where
  pulsePositive : 0 < s.cfg.tIc24
  activeIffPending : s.strobe.strobeActive = true ↔ s.strobe.ic24Deadline ≠ none
  deadlineAhead : ∀ d, s.strobe.ic24Deadline = some d → s.now < d

/-- The BwB unit is exhausted exactly at its ceiling, and has counted no call before its first base
access (45_characteriser_bwb.md R242, R243, R250). -/
structure State.BwbSound (s : State) : Prop where
  exhaustedIffCeiling : s.chr.chrState = .exhausted ↔ s.chr.chrCounter.val = 35
  freshCount : s.chr.chrState = .uninit → s.chr.initCol = 0

/-- A sound state: the invariant every step keeps. -/
structure State.Sound (s : State) : Prop where
  cells : s.CellsSound
  column : s.ColumnSound
  timer : s.TimerSound
  bwb : s.BwbSound

/-- The states a session can be in: what load gives, and from there the host issuing words and SCB
taking steps (00_scope.md R7; 70_reset_and_hazards.md R310). -/
inductive Reachable : State → Prop where
  | load (r : RawCfg) (s : State) : State.load r = .ok s → Reachable s
  | issue (s : State) (w : OpWord) : Reachable s → Reachable (s.issue w)
  | step (s t : State) : Reachable s → Sys2Proof.Machine.step s = .next t → Reachable t

end Sys2Proof.Machine
end

