-- ==== Sys2Proof/Certificates/Slice0/Obligations.lean ====
section
/-! DEFINITION. The statements for the provers, and the small vocabulary they are written in. The
vocabulary restates the spec's tables and formulas in its own way, not through the machine's
definitions. Where a statement speaks of a free input, of the model's own fields (`stream`, the
replies, the draw counts) or of a choice of the model's, its docstring names the log entry. -/

namespace Sys2Proof.Claims

open Sys2Proof.Machine

/-! ## Vocabulary -/

/-- The truth table of `recompute` (40_strobe_sequencer.md section 6). -/
def columnTable (u : Strobe) : BitVec 3 :=
  if u.g2a = true ∨ u.g2b = true then 0
  else if u.g1 = true then BitVec.ofNat 3 (4 * u.gc.toNat + 2 * u.gb.toNat + u.ga.toNat)
  else u.column

/-- The sequencer with its column brought up to date. -/
def settled (u : Strobe) : Strobe := { u with column := columnTable u }

/-- A gate-line operation. -/
def isGateWrite : Instr → Bool
  | .setgateA _ | .setgateB _ | .setgateC _ => true
  | _ => false

/-- A gate-line operation or SETINH.G1. -/
def isGateOrG1Write (i : Instr) : Bool :=
  isGateWrite i || match i with
    | .setinhG1 _ => true
    | _ => false

/-- The level a list of operations leaves on gate A that had `level` before. -/
def lastGateA (level : Bool) (ops : List Instr) : Bool :=
  ops.foldl (fun l i => match i with | .setgateA x => x | _ => l) level

/-- The level a list of operations leaves on gate B that had `level` before. -/
def lastGateB (level : Bool) (ops : List Instr) : Bool :=
  ops.foldl (fun l i => match i with | .setgateB x => x | _ => l) level

/-- The level a list of operations leaves on gate C that had `level` before. -/
def lastGateC (level : Bool) (ops : List Instr) : Bool :=
  ops.foldl (fun l i => match i with | .setgateC x => x | _ => l) level

/-- Cell `k` is one of the `n` cells from `base` on. -/
def inGroup (base n k : Nat) : Prop := base ≤ k ∧ k < base + n

/-- Row `j` of a Barcrest table holds this call. -/
def rowHasCall (tbl : Vector ChrRow 72) (j : Nat) (call : Byte) : Prop :=
  tbl[j]?.map ChrRow.call = some call

/-- A large-card write is live: the pulse runs and bit 7 toggles (41_lamp_matrix.md R176). -/
def writeIsLive (s : State) (data : Byte) : Prop :=
  s.strobe.strobeActive = true ∧ data.getLsbD 7 ≠ s.lamps.lastB7

/-- The first cell of the group a large-card write addresses, by the OLD bank bit (20_memory.md R71). -/
def oldBankGroup (s : State) : Nat :=
  128 + 64 * s.lamps.lastB7.toNat + 8 * s.strobe.column.toNat

/-- The state after `raise CharacteriserFault()` (44_characteriser_barcrest.md R233). -/
def faultLoggedOnce (s : State) : State :=
  if s.chr.chrFaultLogged = true then s
  else { s with
    out := s.out ++ [.log .characteriserFault], chr := { s.chr with chrFaultLogged := true } }

/-- The eight meter events of a byte (46_reel_meter_mux.md R268). -/
def eightMeters (m : Byte) : List Event :=
  [.meterPulse 0 (m.getLsbD 0), .meterPulse 1 (m.getLsbD 1), .meterPulse 2 (m.getLsbD 2),
    .meterPulse 3 (m.getLsbD 3), .meterPulse 4 (m.getLsbD 4), .meterPulse 5 (m.getLsbD 5),
    .meterPulse 6 (m.getLsbD 6), .meterPulse 7 (m.getLsbD 7)]

/-- An event of the mains line. -/
def isMains : Event → Bool
  | .mainsLine _ => true
  | _ => false

/-- An event of a meter. -/
def isMeter : Event → Bool
  | .meterPulse _ _ => true
  | _ => false

/-- A mode for which the spec has no table (46_reel_meter_mux.md R269). -/
def modeHasNoTable (m : ReelMultiplexMode) : Prop :=
  m = .fiveReel5To8 ∨ m = .fiveReel3To6 ∨ m = .sixReel1To8 ∨ m = .sixReel5To8 ∨ m = .sevenReel

/-- IC24's expiry is due: a deadline is pending that virtual time has reached. -/
def expiryIsDue (s : State) : Prop := ∃ d, s.strobe.ic24Deadline = some d ∧ d ≤ s.now

/-- A raw characteriser configuration is well formed (60_exceptions.md R282). -/
def rawChrValid : RawChr → Bool
  | .none => true
  | .barcrest rows => rows.length == 72
  | .bwb calls common game =>
    calls.map List.length == some 4 && common.map List.length == some 5 &&
      game.map List.length == some 5

/-- The field the first failing check of load reports, in the order of 70_reset_and_hazards.md R311;
among the OPEN parameters in the order of log 14. -/
def firstBadField (r : RawCfg) : Option CfgField :=
  if r.lampExtender = none then some .lampExtenderKind
  else if r.ledExtender = none then some .ledExtenderKind
  else if r.reelMode = none then some .reelMultiplexMode
  else if rawChrValid r.chr = false then some .chr
  else if r.tIc24 = 0 then some .tIc24
  else if r.ledWiring = none then some .ledWiring
  else if 2 < r.smallCardCommitPhase then some .smallCardCommitPhase
  else if r.reel5Index < 0 then some .reel5Index
  else none

/-- A characteriser configuration holds exactly the raw tables. -/
def sameTables : RawChr → ChrConfig → Prop
  | .none, c => c = .none
  | .barcrest rows, c => ∃ tbl, c = .barcrest tbl ∧ tbl.toList = rows
  | .bwb calls common game, c => ∃ t, c = .bwb t ∧ calls = some t.commonCall.toList ∧
      common = some t.commonResp.toList ∧ game = some t.gameResp.toList

/-- A characteriser operation. -/
def isChrOp : Instr → Bool
  | .chrw _ _ | .chrr _ => true
  | _ => false

/-- A strobe, lamp, LED, input or meter operation of the host (20_memory.md R87). -/
def isStrobeLampLedInputOrMeterOp : Instr → Bool
  | .setgateA _ | .setgateB _ | .setgateC _ | .setinhG1 _ | .setinhG2A _ | .setinhG2B _
  | .lampa _ | .lampb _ | .lampx _ | .ledw _ | .alphaclk _ | .alphadat _
  | .inread | .aux1r | .aux2r | .meterw _ | .triacw _ | .tick => true
  | _ => false

end Sys2Proof.Claims

open Sys2Proof Sys2Proof.Machine Sys2Proof.Claims

/-! ## Strobe sequencer -/

/-- 40_strobe_sequencer.md R143, R151: a rising gate A starts or restarts the pulse, then the column is
recomputed; any other write only latches the gate. Reading 'transitions' as a change of the latch from 0
to 1 is the spec's own decision D5 (log 24), the coupling its decision D7 (log 32); in the column, that it
holds while G1 is deasserted is its decision D3 on conflict C2, and that an inhibit wins over G1 its
decision D4 (log 17: unsafe for a claim on the held column). -/
def Obligations.SetgateALatchesAndTriggers : Prop :=
  ∀ (level : Bool) (s : State),
    exec (.setgateA level) s = .next { s with
      strobe := settled
        (if s.strobe.ga = false ∧ level = true then
          { s.strobe with
            ga := true
            strobeActive := true
            ic24Deadline := some (s.now + s.cfg.tIc24)
            g2a := if s.cfg.ic24CouplesG2A = true then false else s.strobe.g2a }
        else { s.strobe with ga := level }) }

/-- 40_strobe_sequencer.md R142, R144, R145: encodings, effects, the corner case and the examples. In the
column, that it holds while G1 is deasserted is the spec's own decision D3 on conflict C2, and that an
inhibit wins over G1 its decision D4 (log 17: unsafe for a claim on the held column); the two examples
from reset rest on the reset values of 10_state.md R30 to R33, its decision D10 (log 11). The corner case
(writing the level the latch holds) is stated where the column is sound: in a state no run reaches, a
stale column would be brought up to date. -/
def Obligations.SetgateBAndCLatchAndRecompute : Prop :=
  (encode (.setgateB false) = 0x110000 ∧ encode (.setgateB true) = 0x110001 ∧
    encode (.setgateC false) = 0x120000 ∧ encode (.setgateC true) = 0x120001) ∧
  (∀ (level : Bool) (s : State),
    exec (.setgateB level) s =
      .next { s with strobe := settled { s.strobe with gb := level } } ∧
    exec (.setgateC level) s =
      .next { s with strobe := settled { s.strobe with gc := level } }) ∧
  (∀ s : State, s.ColumnSound → exec (.setgateB s.strobe.gb) s = .next s) ∧
  (∃ t, exec (.setgateB true) State.reset = .next t ∧
    t.strobe.column = 2 ∧ t.strobe.strobeActive = false) ∧
  ∃ t, exec (.setgateC true) State.reset = .next t ∧ t.strobe.column = 4

/-- 40_strobe_sequencer.md R146 to R148: each enable line is latched and the column recomputed. That the
column holds while G1 is deasserted is the spec's own decision D3 on conflict C2, and that an inhibit wins
over G1 its decision D4 (log 17: unsafe for a claim on the held column). -/
def Obligations.SetinhLatchesAndRecomputes : Prop :=
  ∀ (level : Bool) (s : State),
    exec (.setinhG1 level) s =
      .next { s with strobe := settled { s.strobe with g1 := level } } ∧
    exec (.setinhG2A level) s =
      .next { s with strobe := settled { s.strobe with g2a := level } } ∧
    exec (.setinhG2B level) s =
      .next { s with strobe := settled { s.strobe with g2b := level } }

/-- 40_strobe_sequencer.md R153 and 60_exceptions.md R287: a due expiry ends the pulse; while none is due
the event cannot occur, and the model refuses it (its own choice: log 3). The coupling is the spec's own
decision D7 (log 32), that the column holds while G1 is deasserted and that an inhibit wins over G1 its
decisions D3 and D4 (log 17). -/
def Obligations.ExpiryEndsPulse : Prop :=
  ∀ s : State,
    (expiryIsDue s → exec .ic24exp s = .next { s with
      strobe := settled
        { s.strobe with
          strobeActive := false
          ic24Deadline := none
          g2a := if s.cfg.ic24CouplesG2A = true then true else s.strobe.g2a } }) ∧
    (¬ expiryIsDue s → exec .ic24exp s = .refused .expiryNotEnabled)

/-- 40_strobe_sequencer.md R155 (P2, inhibit dominance), after every prefix of any sequence of gate-line
and G1 writes. For G2A under IC24_COUPLES_G2A a rising gate A ends the inhibit, so that line has the
premise of the default. That an inhibit wins over G1 in either state is the spec's own decision D4 (log
17), the coupling its decision D7 (log 32). -/
def Obligations.InhibitDominance : Prop :=
  ∀ (s : State) (ops : List Instr), (∀ i ∈ ops, isGateOrG1Write i = true) →
    (∃ t, execAll (.setinhG2B true :: ops) s = .next t ∧ t.strobe.column = 0) ∧
    (s.cfg.ic24CouplesG2A = false →
      ∃ t, execAll (.setinhG2A true :: ops) s = .next t ∧ t.strobe.column = 0)

/-- 40_strobe_sequencer.md R154 (P1): whatever the order of the gate writes, the column is the value of
the levels they leave. -/
def Obligations.ColumnFollowsGates : Prop :=
  ∀ (s : State) (ops : List Instr), ops ≠ [] → (∀ i ∈ ops, isGateWrite i = true) →
    s.strobe.g1 = true → s.strobe.g2a = false → s.strobe.g2b = false →
    ∃ t, execAll ops s = .next t ∧
      t.strobe.ga = lastGateA s.strobe.ga ops ∧
      t.strobe.gb = lastGateB s.strobe.gb ops ∧
      t.strobe.gc = lastGateC s.strobe.gc ops ∧
      t.strobe.column.toNat =
        4 * t.strobe.gc.toNat + 2 * t.strobe.gb.toNat + t.strobe.ga.toNat

/-- 40_strobe_sequencer.md R152: from a rise of gate A, pulse running or not, the pulse lasts exactly
T_IC24; a deadline that was pending before never fires. That only a change of the latch triggers is the
spec's own decision D5, that the expiry comes at the instant itself its decision D8 (log 24), and that
WAIT alone moves time its decision D9. -/
def Obligations.RetriggerReplacesDeadline : Prop :=
  ∀ s : State, s.strobe.ga = false →
    ∃ t, exec (.setgateA true) s = .next t ∧
      t.strobe.strobeActive = true ∧
      t.strobe.ic24Deadline = some (s.now + s.cfg.tIc24) ∧
      ∀ n : BitVec 16, ∃ u, exec (.wait n) t = .next u ∧
        (n.toNat < s.cfg.tIc24 → u.strobe.strobeActive = true ∧
          u.strobe.ic24Deadline = some (s.now + s.cfg.tIc24)) ∧
        (s.cfg.tIc24 ≤ n.toNat → u.strobe.strobeActive = false ∧
          u.strobe.ic24Deadline = none)

/-- 40_strobe_sequencer.md R146 and 70_reset_and_hazards.md R327: while G1 is deasserted gate writes are
latched and the column holds; asserting G1 loads them all. That the column HOLDS, where another passage
of the source has it fall to 0, is the spec's own decision D3 on conflict C2 (log 17: unsafe for exactly
this claim). -/
def Obligations.GOneHoldDefersGates : Prop :=
  ∀ (s : State) (ops : List Instr), (∀ i ∈ ops, isGateWrite i = true) →
    s.strobe.g1 = false → s.strobe.g2a = false → s.strobe.g2b = false →
    ∃ t u, execAll ops s = .next t ∧ t.strobe.column = s.strobe.column ∧
      exec (.setinhG1 true) t = .next u ∧
      u.strobe.column.toNat = 4 * (lastGateC s.strobe.gc ops).toNat +
        2 * (lastGateB s.strobe.gb ops).toNat + (lastGateA s.strobe.ga ops).toNat

/-! ## Lamp matrix -/

/-- 41_lamp_matrix.md R162, R163: each port writes the eight cells of its column group and latches the
column, unless it latched this column last; then the write has no effect at all. That the two ports run
this algorithm onto cells 0 to 127 whatever card is fitted is the spec's own decision D11 on conflict C9
(log 12). -/
def Obligations.BaselineLampWrite : Prop :=
  ∀ (data : Byte) (s : State),
    (s.strobe.column = s.lamps.lampLatchA → exec (.lampa data) s = .next s) ∧
    (s.strobe.column = s.lamps.lampLatchB → exec (.lampb data) s = .next s) ∧
    (s.strobe.column ≠ s.lamps.lampLatchA → ∃ m,
      exec (.lampa data) s = .next { s with
        lamps := { s.lamps with lampLatchA := s.strobe.column, lamp := m } } ∧
      ∀ k,
        (inGroup (8 * s.strobe.column.toNat) 8 k →
          m.read lampOff k = data.getLsbD (k - 8 * s.strobe.column.toNat)) ∧
        (¬ inGroup (8 * s.strobe.column.toNat) 8 k → m.read lampOff k = s.lampAt k)) ∧
    (s.strobe.column ≠ s.lamps.lampLatchB → ∃ m,
      exec (.lampb data) s = .next { s with
        lamps := { s.lamps with lampLatchB := s.strobe.column, lamp := m } } ∧
      ∀ k,
        (inGroup (64 + 8 * s.strobe.column.toNat) 8 k →
          m.read lampOff k = data.getLsbD (k - (64 + 8 * s.strobe.column.toNat))) ∧
        (¬ inGroup (64 + 8 * s.strobe.column.toNat) 8 k → m.read lampOff k = s.lampAt k))

/-- 41_lamp_matrix.md R164 and the corner case of R162; 70_reset_and_hazards.md R321: whatever happens in
between (but RESET or a write on the same port), a write at the column the port latched last is dropped.
That it holds with a card fitted too is the spec's own decision D11 (log 12). -/
def Obligations.RepeatedColumnWriteDropped : Prop :=
  ∀ (s t : State) (ops : List Instr) (first second : Byte), (∀ i ∈ ops, i ≠ .reset) →
    t.strobe.column = s.strobe.column →
    ((∀ i ∈ ops, ∀ d, i ≠ .lampa d) → execAll (.lampa first :: ops) s = .next t →
      exec (.lampa second) t = .next t) ∧
    ((∀ i ∈ ops, ∀ d, i ≠ .lampb d) → execAll (.lampb first :: ops) s = .next t →
      exec (.lampb second) t = .next t)

/-- 20_memory.md R87: LAMPA and LAMPB commute, and LEDW commutes with either (under an LED card both
orders are refused alike). The first is stated where the lamp cells are in the model's canonical form (log
13). That the ports keep their cells whatever card is fitted is the spec's own decision D11 (log 12), the
refusal of LEDW under an LED card its decision D17 (log 19). -/
def Obligations.BaselinePortsCommute : Prop :=
  (∀ (a b : Byte) (s : State), Memory.wf lampOff s.lamps.lamp →
    ∃ t, execAll [.lampa a, .lampb b] s = .next t ∧ execAll [.lampb b, .lampa a] s = .next t) ∧
  ∀ (d a b : Byte) (s : State),
    execAll [.ledw d, .lampa a] s = execAll [.lampa a, .ledw d] s ∧
    execAll [.ledw d, .lampb b] s = execAll [.lampb b, .ledw d] s

/-- 41_lamp_matrix.md R171: without a card LAMPX has no effect on any state. This is the spec's own
decision D11 (log 12). -/
def Obligations.LampxWithoutCardDoesNothing : Prop :=
  ∀ (data : Byte) (s : State), s.cfg.lampExtender = .none → exec (.lampx data) s = .next s

/-- 41_lamp_matrix.md R172: the small card decodes its own column, counts its three-write cycle, and
commits five inverted lamp lines on the commit phase alone. The cells 128 + 8*col + i, the numbering of
the phases, and that the write which changes the column is phase 0 are the spec's own decision D13
(log 12). -/
def Obligations.SmallCardWrite : Prop :=
  ∀ (data : Byte) (s : State) (col : BitVec 3) (phase : Nat), s.cfg.lampExtender = .smallCard →
    col.toNat = data.toNat % 8 →
    phase = (if col ≠ s.lamps.scCol then 0 else s.lamps.scPhase.val) →
    ∃ (m : Memory Bool) (p : Fin 3),
      exec (.lampx data) s = .next { s with
        lamps := { s.lamps with scCol := col, scPhase := p, lamp := m } } ∧
      p.val = (phase + 1) % 3 ∧
      ∀ k,
        (phase = s.cfg.smallCardCommitPhase.val ∧ inGroup (128 + 8 * col.toNat) 5 k →
          m.read lampOff k = !data.getLsbD (3 + (k - (128 + 8 * col.toNat)))) ∧
        (¬ (phase = s.cfg.smallCardCommitPhase.val ∧ inGroup (128 + 8 * col.toNat) 5 k) →
          m.read lampOff k = s.lampAt k)

/-- 41_lamp_matrix.md R176, R177, R179: a large card of kind A or C. The guard of the commit, the cells
128 + 64*bank + 8*column + i, and that C is A are the spec's own decision D14 (log 12, 26). -/
def Obligations.LargeCardWrite : Prop :=
  ∀ (data : Byte) (s : State) (live : Bool),
    s.cfg.lampExtender = .largeCardA ∨ s.cfg.lampExtender = .largeCardC →
    (live = true ↔ writeIsLive s data) →
    ∃ m : Memory Bool,
      exec (.lampx data) s = .next { s with
        lamps := { s.lamps with cardLive := live, lastB7 := data.getLsbD 7, lamp := m } } ∧
      ∀ k,
        (live = true ∧ inGroup (oldBankGroup s) 7 k →
          m.read lampOff k = data.getLsbD (k - oldBankGroup s)) ∧
        (¬ (live = true ∧ inGroup (oldBankGroup s) 7 k) → m.read lampOff k = s.lampAt k)

/-- 41_lamp_matrix.md R181, R182: a large card of kind B writes the lamps as A does and, when live, the
complement of the whole byte to the secondary LED position of the same old bank and column. The separate
array and its index 8*bank + column are the spec's own decision D15, the lamps' guard and cells its
decision D14 (log 12: unsafe for a claim that names a card's cell). -/
def Obligations.LargeCardBWritesLampsAndLed : Prop :=
  ∀ (data : Byte) (s : State) (live : Bool), s.cfg.lampExtender = .largeCardB →
    (live = true ↔ writeIsLive s data) →
    ∃ (m : Memory Bool) (n : Memory Byte),
      exec (.lampx data) s = .next { s with
        lamps := { s.lamps with cardLive := live, lastB7 := data.getLsbD 7, lamp := m }
        leds := { s.leds with led2 := n } } ∧
      (∀ k,
        (live = true ∧ inGroup (oldBankGroup s) 7 k →
          m.read lampOff k = data.getLsbD (k - oldBankGroup s)) ∧
        (¬ (live = true ∧ inGroup (oldBankGroup s) 7 k) → m.read lampOff k = s.lampAt k)) ∧
      ∀ k,
        (live = true ∧ k = 8 * s.lamps.lastB7.toNat + s.strobe.column.toNat →
          (n.read ledBlank k).toNat = 255 - data.toNat) ∧
        (¬ (live = true ∧ k = 8 * s.lamps.lastB7.toNat + s.strobe.column.toNat) →
          n.read ledBlank k = s.led2At k)

/-- 41_lamp_matrix.md R178 (P6, bank lag), on every large card and from either bank: a write that toggles
bit 7 lands in the OLD bank, and the next toggling write in the other. P6's own case is a write that
raises bit 7, from bank 0. The cells 128 + 64*bank + 8*column + i and the guard of the commit are the
spec's own decision D14 (log 12: unsafe for a claim that names a card's cell); that C is A is D14 too
(log 26). -/
def Obligations.LargeCardBankLag : Prop :=
  ∀ (first second : Byte) (s : State) (old new : Nat),
    s.cfg.lampExtender = .largeCardA ∨ s.cfg.lampExtender = .largeCardB ∨
      s.cfg.lampExtender = .largeCardC →
    s.strobe.strobeActive = true →
    first.getLsbD 7 ≠ s.lamps.lastB7 → second.getLsbD 7 = s.lamps.lastB7 →
    old = 128 + 64 * s.lamps.lastB7.toNat + 8 * s.strobe.column.toNat →
    new = 128 + 64 * (first.getLsbD 7).toNat + 8 * s.strobe.column.toNat →
    ∃ t, execAll [.lampx first, .lampx second] s = .next t ∧
      t.lamps.lastB7 = s.lamps.lastB7 ∧ t.lamps.cardLive = true ∧
      ∀ k,
        (inGroup old 7 k → t.lampAt k = first.getLsbD (k - old)) ∧
        (inGroup new 7 k → t.lampAt k = second.getLsbD (k - new)) ∧
        (¬ inGroup old 7 k → ¬ inGroup new 7 k → t.lampAt k = s.lampAt k)

/-- 70_reset_and_hazards.md R322: of three writes at one column, counted from the write that changed the
card column, exactly the one at the commit phase takes effect. Which write counts as phase 0, the
numbering of the phases and the cells 128 + 8*col + i are the spec's own decision D13 (log 12: unsafe for
a claim that names a card's cell). A first write at the unchanged card column is SmallCardWrite's. -/
def Obligations.SmallCardCommitsOneInThree : Prop :=
  ∀ (w0 w1 w2 : Byte) (s : State), s.cfg.lampExtender = .smallCard →
    w0.toNat % 8 ≠ s.lamps.scCol.toNat → w1.toNat % 8 = w0.toNat % 8 →
    w2.toNat % 8 = w0.toNat % 8 →
    ∃ t, execAll [.lampx w0, .lampx w1, .lampx w2] s = .next t ∧
      t.lamps.scPhase = 0 ∧ t.lamps.scCol.toNat = w0.toNat % 8 ∧
      ∀ k,
        (inGroup (128 + 8 * (w0.toNat % 8)) 5 k →
          t.lampAt k = !(if s.cfg.smallCardCommitPhase = 0 then w0
            else if s.cfg.smallCardCommitPhase = 1 then w1 else w2).getLsbD
              (3 + (k - (128 + 8 * (w0.toNat % 8))))) ∧
        (¬ inGroup (128 + 8 * (w0.toNat % 8)) 5 k → t.lampAt k = s.lampAt k)

/-! ## LED matrix and alphanumeric link -/

/-- 42_led_alpha.md R191, R192: one digit takes the complement of the byte. That no last-column filter and
no gating by the pulse applies is the spec's own decision D16 (R191; 91_not_in_source.md N7 says not to
assume it of the hardware), and the wiring is its OPEN parameter LED_WIRING (D16, log 5): both wirings are
stated. -/
def Obligations.LedwWritesOneDigit : Prop :=
  ∀ (data : Byte) (s : State) (n : Nat), s.cfg.ledExtender = .none →
    (s.cfg.ledWiring = .reversed → n + s.strobe.column.toNat = 7) →
    (s.cfg.ledWiring = .direct → n = s.strobe.column.toNat) →
    ∃ m : Memory Byte,
      exec (.ledw data) s = .next { s with leds := { s.leds with led := m } } ∧
      (m.read ledBlank n).toNat = 255 - data.toNat ∧
      ∀ k, k ≠ n → m.read ledBlank k = s.ledAt k

/-- 42_led_alpha.md R195: the clock is latched, and a rising edge alone sends the present data level. That
the rising edge is the active one is the spec's own decision D18 (log 31). -/
def Obligations.AlphaclkSendsOnRise : Prop :=
  ∀ (level : Bool) (s : State),
    (s.leds.alphaClk = false ∧ level = true → exec (.alphaclk level) s = .next { s with
      leds := { s.leds with alphaClk := true }, out := s.out ++ [.alphaBit s.leds.alphaDat] }) ∧
    (¬ (s.leds.alphaClk = false ∧ level = true) →
      exec (.alphaclk level) s = .next { s with leds := { s.leds with alphaClk := level } })

/-- 42_led_alpha.md R196, whole: encoding and effect. -/
def Obligations.AlphadatLatchesOnly : Prop :=
  encode (.alphadat false) = 0x420000 ∧ encode (.alphadat true) = 0x420001 ∧
  ∀ (level : Bool) (s : State),
    exec (.alphadat level) s = .next { s with leds := { s.leds with alphaDat := level } }

/-! ## Input scanner -/

/-- 43_input_scanner.md R206, R208 to R211: each read gives back its byte and changes no state of SCB's.
The auxiliary bytes are composed by the configuration's `aux_compose`, whatever function it is. That the
inputs are free values taken at the scanner's draw count, and that a byte given back goes to the list of
the scanner's replies, is the model's form of them (log 6, 7, 10). That INREAD gives back the port inside
and outside the pulse alike is the spec's own decision D19 (R206, log 27); that the auxiliary bytes are a
function of source and pocket alone its decision D20 (R209, log 6). -/
def Obligations.InputReadsGiveBack : Prop :=
  ∀ (s : State) (compose : AuxPort → Byte → Fin 12 → Byte),
    (∀ port byte pocket,
      composeAux s.cfg.auxCompose port byte pocket = compose port byte pocket) →
    exec .inread s = .next { s with
      inputReplies := s.inputReplies ++ [Config.inputPort s.inputDraws s.strobe.column]
      inputDraws := s.inputDraws + 1 } ∧
    exec .aux1r s = .next { s with
      inputReplies := s.inputReplies ++ [compose .aux1 (Config.auxSource s.inputDraws .aux1)
        (Config.gamballPocket s.inputDraws)]
      inputDraws := s.inputDraws + 1 } ∧
    exec .aux2r s = .next { s with
      inputReplies := s.inputReplies ++ [compose .aux2 (Config.auxSource s.inputDraws .aux2)
        (Config.gamballPocket s.inputDraws)]
      inputDraws := s.inputDraws + 1 }

/-- 20_memory.md R83: of the read operations, only CHRR at offset 0 under BWB changes the counter and the
state of the characteriser, and only CHRR under NONE the log latch and the trace. The model's own replies
and draw counts apart (log 7, 10). That the log latch is set once for reads and writes alike is the spec's
own decision D21, that a checkpoint read leaves the counter unless the switch says otherwise its decision
D23 (log 16). -/
def Obligations.ReadsWithSideEffects : Prop :=
  ∀ (s : State) (i : Instr), i = .inread ∨ i = .aux1r ∨ i = .aux2r ∨ (∃ o, i = .chrr o) →
    ∃ t, exec i s = .next t ∧
      t.cfg = s.cfg ∧ t.strobe = s.strobe ∧ t.lamps = s.lamps ∧ t.leds = s.leds ∧
      t.reel = s.reel ∧ t.now = s.now ∧ t.stream = s.stream ∧
      ((∃ o, i = .chrr o) →
        (∃ v, t.chrReplies = s.chrReplies ++ [v]) ∧ t.inputReplies = s.inputReplies) ∧
      ((∀ o, i ≠ .chrr o) →
        (∃ v, t.inputReplies = s.inputReplies ++ [v]) ∧ t.chrReplies = s.chrReplies) ∧
      (t.chr ≠ s.chr →
        (i = .chrr 0 ∧ (∃ tables, s.cfg.chr = .bwb tables) ∧
          ∃ c st, t.chr = { s.chr with chrCounter := c, chrState := st }) ∨
        ((∃ o, i = .chrr o) ∧ s.cfg.chr = .none ∧
          t.chr = { s.chr with chrFaultLogged := true })) ∧
      (t.out ≠ s.out → (∃ o, i = .chrr o) ∧ s.cfg.chr = .none ∧
        t.out = s.out ++ [.log .characteriserFault])

/-! ## Characteriser, Barcrest variant and fallback -/

/-- 44_characteriser_barcrest.md R222, and the read after it (R226, R235, P3): the reset call, whatever
the table holds. That `chr_mode` becomes IDLE is the spec's own decision D22 (R229); that the byte given
back goes to the list of the characteriser's replies is the model's form of it (log 10). -/
def Obligations.BarcrestResetCall : Prop :=
  ∀ (s : State) (tbl : Vector ChrRow 72), s.cfg.chr = .barcrest tbl →
    ∃ t, exec (.chrw 0 0) s = .next t ∧
      t = { s with chr := { s.chr with currentColumn := 0, chrMode := .idle } } ∧
      exec (.chrr 0) t = .next { t with chrReplies := t.chrReplies ++ [tbl[0].response] }

/-- 44_characteriser_barcrest.md R223: the first row at or after the current one whose call matches, of
rows 0..63; none: the position stays. That `chr_mode` becomes SCANNING is the spec's own decision D22
(R229). -/
def Obligations.BarcrestScanTakesFirstMatch : Prop :=
  ∀ (s : State) (tbl : Vector ChrRow 72) (call : Byte), s.cfg.chr = .barcrest tbl → call ≠ 0 →
    ∃ r : BitVec 6,
      exec (.chrw 0 call) s = .next { s with
        chr := { s.chr with currentColumn := r, chrMode := .scanning } } ∧
      ((∃ j, s.chr.currentColumn.toNat ≤ j ∧ j ≤ 63 ∧ rowHasCall tbl j call) →
        s.chr.currentColumn.toNat ≤ r.toNat ∧ rowHasCall tbl r.toNat call ∧
        ∀ j, s.chr.currentColumn.toNat ≤ j → j < r.toNat → ¬ rowHasCall tbl j call) ∧
      ((∀ j, s.chr.currentColumn.toNat ≤ j → j ≤ 63 → ¬ rowHasCall tbl j call) →
        r = s.chr.currentColumn)

/-- 44_characteriser_barcrest.md R224, R225: the lamp call selects column n for the square n*n and ignores
any other byte; a write at an offset other than 0 and 2 has no effect. That clause on other offsets is the
spec's own decision D21. -/
def Obligations.BarcrestLampCallAndOtherOffsets : Prop :=
  ∀ (s : State) (tbl : Vector ChrRow 72) (call : Byte), s.cfg.chr = .barcrest tbl →
    (∀ n : BitVec 3, n.toNat * n.toNat = call.toNat →
      exec (.chrw 2 call) s = .next { s with chr := { s.chr with lampColumn := n } }) ∧
    ((∀ n : BitVec 3, n.toNat * n.toNat ≠ call.toNat) → exec (.chrw 2 call) s = .next s) ∧
    ∀ offset : Byte, offset ≠ 0 → offset ≠ 2 → exec (.chrw offset call) s = .next s

/-- 44_characteriser_barcrest.md R226 to R228: what each offset gives back, and that nothing else changes.
That the byte given back goes to the list of the characteriser's replies is the model's form of it
(log 10). -/
def Obligations.BarcrestReads : Prop :=
  ∀ (s : State) (tbl : Vector ChrRow 72) (row : ChrRow), s.cfg.chr = .barcrest tbl →
    (tbl[s.chr.currentColumn.toNat]? = some row →
      exec (.chrr 0) s = .next { s with chrReplies := s.chrReplies ++ [row.response] }) ∧
    (tbl[s.chr.lampColumn.toNat + 64]? = some row →
      exec (.chrr 3) s = .next { s with chrReplies := s.chrReplies ++ [row.response] }) ∧
    ∀ offset : Byte, offset ≠ 0 → offset ≠ 3 →
      exec (.chrr offset) s = .next { s with chrReplies := s.chrReplies ++ [0x00] }

/-- 44_characteriser_barcrest.md R223, R236; 70_reset_and_hazards.md R326: between reset calls the
position never goes back, whatever else the host does. -/
def Obligations.ScanNeverGoesBack : Prop :=
  ∀ (s t : State) (tbl : Vector ChrRow 72) (ops : List Instr), s.cfg.chr = .barcrest tbl →
    (∀ i ∈ ops, i ≠ .reset ∧ i ≠ .chrw 0 0) → execAll ops s = .next t →
    s.chr.currentColumn.toNat ≤ t.chr.currentColumn.toNat

/-- 44_characteriser_barcrest.md R230: without a table a write raises the condition and does nothing else,
at every offset and for every call. That nothing else happens, at any offset, is the spec's own decision
D21. -/
def Obligations.FallbackWriteOnlyLogs : Prop :=
  ∀ (s : State) (offset call : Byte), s.cfg.chr = .none →
    exec (.chrw offset call) s = .next (faultLoggedOnce s)

/-- 44_characteriser_barcrest.md R232: without a table a read raises the condition and gives back the
program-memory byte at X. Both are free inputs taken at the characteriser's draw count, the model's form
of them (log 8, 10). That it is the same at every offset is the spec's own decision D21, the 16-bit
address and that X and the byte are inputs its decision D37 (both R232). -/
def Obligations.FallbackReadGivesProgramByte : Prop :=
  ∀ (s : State) (offset : Byte), s.cfg.chr = .none →
    exec (.chrr offset) s = .next { faultLoggedOnce s with
      chrReplies := s.chrReplies ++ [Config.programMemory s.chrDraws (Config.cpuIndexRegister s.chrDraws)]
      chrDraws := s.chrDraws + 1 }

/-- 10_state.md R52; 44_characteriser_barcrest.md R233; 60_exceptions.md R294: over any run without RESET
the log events counted go up exactly when the latch does, and the latch stays set. That 'once' means once
between resets, for reads and writes together, is the spec's own decision D21. -/
def Obligations.FaultLoggedOncePerReset : Prop :=
  ∀ (s t : State) (ops : List Instr), (∀ i ∈ ops, i ≠ .reset) → execAll ops s = .next t →
    t.out.count (.log .characteriserFault) + s.chr.chrFaultLogged.toNat =
      s.out.count (.log .characteriserFault) + t.chr.chrFaultLogged.toNat ∧
    (s.chr.chrFaultLogged = true → t.chr.chrFaultLogged = true)

/-! ## Characteriser, BwB variant -/

/-- 45_characteriser_bwb.md R241 to R246: a base access, then the common scan. The bytes of R245 and R246
are free values taken at the characteriser's draw count (log 9). That the lowest matching index decides,
and that a response past the fifth is a draw, are the spec's own decision D24 (R244, R245), the draw for
an unmatched call its decision D28 (R246), and `init_col` and `bwb_return` unbounded its decision D27 (log
25). -/
def Obligations.BwbWriteResult : Prop :=
  ∀ (s : State) (tables : BwbTables) (offset call : Byte), s.cfg.chr = .bwb tables →
    ∃ t, exec (.chrw offset call) s = .next t ∧
      t = { s with
        chrDraws := t.chrDraws
        chr := { s.chr with
          chrState := t.chr.chrState
          chrCounter := t.chr.chrCounter
          initCol := t.chr.initCol
          bwbReturn := t.chr.bwbReturn
          chrValue := t.chr.chrValue } } ∧
      (offset.toNat % 64 = 0 →
        (s.chr.chrState = .uninit → t.chr.chrState = .running ∧ t.chr.chrCounter = 0) ∧
        (s.chr.chrState ≠ .uninit →
          t.chr.chrState = s.chr.chrState ∧ t.chr.chrCounter = s.chr.chrCounter) ∧
        t.chr.initCol = if call = 0 then s.chr.initCol + 1 else 0) ∧
      (offset.toNat % 64 ≠ 0 → t.chr.chrState = s.chr.chrState ∧
        t.chr.chrCounter = s.chr.chrCounter ∧ t.chr.initCol = s.chr.initCol) ∧
      ((∀ j : Nat, tables.commonCall[j]? ≠ some call) → t.chr.bwbReturn = s.chr.bwbReturn ∧
        t.chr.chrValue = Config.bwbNoise s.chrDraws ∧ t.chrDraws = s.chrDraws + 1) ∧
      ∀ x r : Nat, tables.commonCall[x]? = some call →
        (∀ j : Nat, j < x → tables.commonCall[j]? ≠ some call) →
        r = (if x = 0 then 0 else s.chr.bwbReturn) →
        t.chr.bwbReturn = r + 1 ∧
        (∀ v, tables.commonResp[r]? = some v → t.chr.chrValue = v ∧ t.chrDraws = s.chrDraws) ∧
        (4 < r → t.chr.chrValue = Config.bwbPastEnd s.chrDraws ∧ t.chrDraws = s.chrDraws + 1)

/-- 45_characteriser_bwb.md R248 to R251, with the switch of R249 either way. The literal reading of the
checkpoint and the switch are the spec's own decision D23 (log 16), the ceiling at 35 its decision D25
(log 25). -/
def Obligations.BwbReadResult : Prop :=
  ∀ (s : State) (tables : BwbTables), s.cfg.chr = .bwb tables →
    (∀ offset : Byte, offset ≠ 0 →
      exec (.chrr offset) s = .next { s with chrReplies := s.chrReplies ++ [s.chr.chrValue] }) ∧
    (∀ (k : Nat) (v : Byte), s.chr.chrCounter.val = 7 * k + 6 → tables.gameResp[k]? = some v →
      (s.cfg.bwbCheckpointAdvances = false →
        exec (.chrr 0) s = .next { s with chrReplies := s.chrReplies ++ [v] }) ∧
      (s.cfg.bwbCheckpointAdvances = true → ∀ c : Fin 36, c.val = s.chr.chrCounter.val + 1 →
        exec (.chrr 0) s = .next { s with
          chrReplies := s.chrReplies ++ [v]
          chr := { s.chr with
            chrCounter := c
            chrState := if c.val = 35 then .exhausted else s.chr.chrState } })) ∧
    (s.chr.chrCounter.val % 7 ≠ 6 → ∀ c : Fin 36, c.val = s.chr.chrCounter.val + 1 →
      exec (.chrr 0) s = .next { s with
        chrReplies := s.chrReplies ++ [s.chr.chrValue]
        chr := { s.chr with
          chrCounter := c
          chrState := if c.val = 35 then .exhausted else s.chr.chrState } }) ∧
    (s.chr.chrCounter.val = 35 →
      exec (.chrr 0) s = .next { s with chrReplies := s.chrReplies ++ [s.chr.chrValue] })

/-- 45_characteriser_bwb.md R252: by the rules as worded the counter never passes the first checkpoint,
over any run of operations. This is the consequence of the spec's own decision D23, the literal reading of
the checkpoint (log 16). -/
def Obligations.BwbCounterStopsAtFirstCheckpoint : Prop :=
  ∀ (s t : State) (ops : List Instr), s.cfg.bwbCheckpointAdvances = false →
    s.chr.chrCounter.val ≤ 6 → execAll ops s = .next t → t.chr.chrCounter.val ≤ 6

/-- 45_characteriser_bwb.md R249 under BWB_CHECKPOINT_ADVANCES: k reads of offset 0 from a counter of 0
give back the five rows at the five checkpoints, the last value elsewhere, and exhaust the unit at 35. The
switch is the other reading the spec's own decision D23 offers (log 16), the ceiling its decision D25 (log
25). -/
def Obligations.BwbCheckpointsReachedWhenAdvancing : Prop :=
  ∀ (s : State) (tables : BwbTables) (k : Nat), s.cfg.chr = .bwb tables →
    s.cfg.bwbCheckpointAdvances = true → s.chr.chrCounter = 0 →
    ∃ t, execAll (List.replicate k (.chrr 0)) s = .next t ∧
      t.chr.chrCounter.val = min k 35 ∧
      (35 ≤ k → t.chr.chrState = .exhausted) ∧
      t.chrReplies = s.chrReplies ++ (List.range k).map fun j =>
        if j = 6 then tables.gameResp[0]
        else if j = 13 then tables.gameResp[1]
        else if j = 20 then tables.gameResp[2]
        else if j = 27 then tables.gameResp[3]
        else if j = 34 then tables.gameResp[4]
        else s.chr.chrValue

/-! ## Reel and meter multiplexer -/

/-- 46_reel_meter_mux.md R261, whole: encoding, effect (one latch, no event), and that of two METERW the
later wins. -/
def Obligations.MeterwLatches : Prop :=
  (∀ data : Byte, (encode (.meterw data)).toNat = 0x700000 + data.toNat) ∧
  ∀ (data later : Byte) (s : State),
    exec (.meterw data) s = .next { s with reel := { s.reel with mmtrData := data } } ∧
    execAll [.meterw data, .meterw later] s = exec (.meterw later) s

/-- 46_reel_meter_mux.md R262: encoding and effect. That the byte has no further effect is the spec's own
decision (D30). -/
def Obligations.TriacwLatches : Prop :=
  ∀ (data : Byte) (s : State),
    (encode (.triacw data)).toNat = 0x710000 + data.toNat ∧
    exec (.triacw data) s = .next { s with reel := { s.reel with triacData := data } }

/-- 46_reel_meter_mux.md R264, R265, R268: TICK under STANDARD_REEL. That TICK acts on the byte METERW
latched, and the order of the events, are the spec's own decision D29 (log 30). -/
def Obligations.TickStandardReel : Prop :=
  ∀ s : State, s.cfg.reelMode = .standardReel →
    exec .tick s = .next { s with
      reel := { s.reel with signal50Hz := !s.reel.signal50Hz }
      out := s.out ++ ([.mainsLine (!s.reel.signal50Hz)] ++ eightMeters s.reel.mmtrData) }

/-- 46_reel_meter_mux.md R264, R266, R268: TICK under FIVE_REEL_8TO5: the nibble of bits 7, 5, 3, 0 goes
to the fifth reel, and the meters never see those bits. That TICK acts on the byte METERW latched, the
order of the events and the reel index (OPEN parameter REEL5_INDEX) are the spec's own decision D29 (log
30). -/
def Obligations.TickFiveReelEightToFive : Prop :=
  ∀ s : State, s.cfg.reelMode = .fiveReel8To5 →
    ∃ nib : BitVec 4,
      nib.toNat = (s.reel.mmtrData.getLsbD 0).toNat + 2 * (s.reel.mmtrData.getLsbD 3).toNat +
        4 * (s.reel.mmtrData.getLsbD 5).toNat + 8 * (s.reel.mmtrData.getLsbD 7).toNat ∧
      exec .tick s = .next { s with
        reel := { s.reel with signal50Hz := !s.reel.signal50Hz }
        out := s.out ++
          [.mainsLine (!s.reel.signal50Hz), .stepperUpdate s.cfg.reel5Index nib,
            .meterPulse 0 false, .meterPulse 1 (s.reel.mmtrData.getLsbD 1),
            .meterPulse 2 (s.reel.mmtrData.getLsbD 2), .meterPulse 3 false,
            .meterPulse 4 (s.reel.mmtrData.getLsbD 4), .meterPulse 5 false,
            .meterPulse 6 (s.reel.mmtrData.getLsbD 6), .meterPulse 7 false] }

/-- 46_reel_meter_mux.md R264, R267, R268: TICK under FLUTTERBOX: bit 7 is the solenoid, never a meter.
That TICK acts on the byte METERW latched, and the order of the events, are the spec's own decision D29
(log 30). -/
def Obligations.TickFlutterbox : Prop :=
  ∀ (s : State) (m : Byte), s.cfg.reelMode = .flutterbox →
    m.toNat = s.reel.mmtrData.toNat % 128 →
    exec .tick s = .next { s with
      reel := { s.reel with
        signal50Hz := !s.reel.signal50Hz, flutter := s.reel.mmtrData.getLsbD 7 }
      out := s.out ++ ([.mainsLine (!s.reel.signal50Hz)] ++ eightMeters m) }

/-- 46_reel_meter_mux.md R268, R270; 60_exceptions.md R286: the mains line moves with the eight meters and
never without them, on TICK and on nothing else. RESET alone returns the line's level to 0, and emits
nothing: 70_reset_and_hazards.md R312, the spec's own decision D36. That the meters are driven at TICK,
from the latched byte, is its decision D29 (log 30). -/
def Obligations.TickLockstep : Prop :=
  ∀ (i : Instr) (s t : State), exec i s = .next t →
    ∃ es, t.out = s.out ++ es ∧
      es.countP isMains = (if i = .tick then 1 else 0) ∧
      es.countP isMeter = 8 * es.countP isMains ∧
      t.reel.signal50Hz =
        (if i = .tick then !s.reel.signal50Hz
          else if i = .reset then false else s.reel.signal50Hz)

/-! ## Load, RESET, WAIT -/

/-- 70_reset_and_hazards.md R312, whole: every element to its reset value, the configuration, the clock
and the trace unchanged, no event; a pending expiry never fires. The model's own stream, replies and draw
counts stay too (log 18). The operation itself is the spec's own decision D36 (that the clock and the
trace stay, D9 too), and so are the reset values the source does not give: D10, D12 to D14, D18, D21, D33
(10_state.md R68, log 11). -/
def Obligations.ResetOperation : Prop :=
  encode .reset = 0xE00000 ∧
  (∀ s : State, exec .reset s = .next { s with
    strobe :=
      { ga := false, gb := false, gc := false, g1 := true, g2a := false, g2b := false,
        column := 0, strobeActive := false, ic24Deadline := none }
    lamps :=
      { lampLatchA := 0, lampLatchB := 0, scCol := 0, scPhase := 0, lastB7 := false,
        cardLive := false, lamp := [] }
    leds := { led := [], led2 := [], alphaClk := false, alphaDat := false }
    chr :=
      { currentColumn := 0, lampColumn := 0, chrMode := .idle, chrState := .uninit,
        chrCounter := 0, initCol := 0, bwbReturn := 0, chrValue := 0, chrFaultLogged := false }
    reel := { mmtrData := 0, triacData := 0, signal50Hz := false, flutter := false } }) ∧
  (∀ k, (State.fresh Cfg.standard).lampAt k = false) ∧
  (∀ n, (State.fresh Cfg.standard).ledAt n = 0 ∧ (State.fresh Cfg.standard).led2At n = 0) ∧
  (∀ s : State, exec .reset s = .next { State.fresh s.cfg with
    now := s.now, out := s.out, stream := s.stream, inputReplies := s.inputReplies
    chrReplies := s.chrReplies, inputDraws := s.inputDraws, chrDraws := s.chrDraws }) ∧
  ∃ t, execAll [.setgateA true, .reset, .wait 20000] State.reset = .next t ∧
    t.strobe.strobeActive = false ∧ t.now = 20000 ∧ t.out = []

/-- 70_reset_and_hazards.md R310, R311; 60_exceptions.md R282: load gives a session with the supplied
configuration and every element at its reset value, or reports the first field that fails its check. The
order among the OPEN parameters, and REEL5_INDEX failing only below 0, are the model's (log 14, 15). Which
faults are fatal and the order of R311 are the spec's own decision D32. -/
def Obligations.LoadChecksConfiguration : Prop :=
  ∀ r : RawCfg,
    (∀ f, firstBadField r = some f → State.load r = .error (.configurationError f)) ∧
    (firstBadField r = none → ∃ c : Cfg, State.load r = .ok (State.fresh c) ∧
      c.reelCount = r.reelCount ∧ r.reelMode = some c.reelMode ∧
      r.lampExtender = some c.lampExtender ∧ r.ledExtender = some c.ledExtender ∧
      sameTables r.chr c.chr ∧ c.tIc24 = r.tIc24 ∧
      c.ic24CouplesG2A = r.ic24CouplesG2A ∧ r.ledWiring = some c.ledWiring ∧
      c.smallCardCommitPhase.val = r.smallCardCommitPhase ∧
      (c.reel5Index : Int) = r.reel5Index ∧ c.auxCompose = r.auxCompose ∧
      c.bwbCheckpointAdvances = r.bwbCheckpointAdvances)

/-- 10_state.md R68: the state after load, for every configuration, and that State.reset is such a state
(its configuration is the model's choice: log 4). Of these values the source states only `current_column`
0, IDLE and the BwB fresh state; the others are the spec's own decisions D10, D12 to D14, D18, D21, D33
(R68's column 'basis', log 11), time 0 its decision D9. -/
def Obligations.ResetStateValues : Prop :=
  State.reset = State.fresh State.reset.cfg ∧
  ∀ c : Cfg, ∃ s, s = State.fresh c ∧ s.cfg = c ∧
    s.strobe.ga = false ∧ s.strobe.gb = false ∧ s.strobe.gc = false ∧ s.strobe.g1 = true ∧
    s.strobe.g2a = false ∧ s.strobe.g2b = false ∧ s.strobe.column = 0 ∧
    s.strobe.strobeActive = false ∧ s.strobe.ic24Deadline = none ∧
    s.lamps.lampLatchA = 0 ∧ s.lamps.lampLatchB = 0 ∧ s.lamps.scCol = 0 ∧
    s.lamps.scPhase = 0 ∧ s.lamps.lastB7 = false ∧ s.lamps.cardLive = false ∧
    (∀ k, s.lampAt k = false) ∧ (∀ n, s.ledAt n = 0 ∧ s.led2At n = 0) ∧
    s.leds.alphaClk = false ∧ s.leds.alphaDat = false ∧
    s.chr.currentColumn = 0 ∧ s.chr.lampColumn = 0 ∧ s.chr.chrMode = .idle ∧
    s.chr.chrState = .uninit ∧ s.chr.chrCounter = 0 ∧ s.chr.initCol = 0 ∧
    s.chr.bwbReturn = 0 ∧ s.chr.chrValue = 0 ∧ s.chr.chrFaultLogged = false ∧
    s.reel.mmtrData = 0 ∧ s.reel.triacData = 0 ∧ s.reel.signal50Hz = false ∧
    s.reel.flutter = false ∧ s.now = 0 ∧ s.out = []

/-- 70_reset_and_hazards.md R318: WAIT moves virtual time, and takes the expiry whose instant it reaches.
WAIT and its clock are the spec's own decision D9, that the expiry comes first at its instant its decision
D8 (log 24), the coupling D7 (log 32), the held column and the inhibit over G1 D3 and D4 (log 17); a
deadline already past, in states no run reaches, is log 21. -/
def Obligations.WaitMovesTimePastExpiry : Prop :=
  ∀ (n : BitVec 16) (s : State),
    ((∀ d, s.strobe.ic24Deadline = some d → s.now + n.toNat < d) →
      exec (.wait n) s = .next { s with now := s.now + n.toNat }) ∧
    (∀ d, s.strobe.ic24Deadline = some d → d ≤ s.now + n.toNat →
      exec (.wait n) s = .next { s with
        now := s.now + n.toNat
        strobe := settled
          { s.strobe with
            strobeActive := false
            ic24Deadline := none
            g2a := if s.cfg.ic24CouplesG2A = true then true else s.strobe.g2a } })

/-- 70_reset_and_hazards.md R318: two waits are one wait of their sum, wherever the expiry falls. WAIT and
its clock are the spec's own decision D9; that an expiry at the very instant is taken is its decision D8
(log 24). -/
def Obligations.WaitsAddUp : Prop :=
  ∀ (a b : BitVec 16) (s : State), a.toNat + b.toNat < 65536 →
    ∃ t, execAll [.wait a, .wait b] s = .next t ∧ exec (.wait (a + b)) s = .next t

/-- 00_scope.md R3, whole: the configuration record of a session is the one supplied at load, and no
operation, and no step, ever writes it. -/
def Obligations.ConfigurationImmutable : Prop :=
  (∀ (r : RawCfg) (s : State), State.load r = .ok s →
    s.cfg.reelCount = r.reelCount ∧ r.reelMode = some s.cfg.reelMode ∧
    r.lampExtender = some s.cfg.lampExtender ∧ r.ledExtender = some s.cfg.ledExtender ∧
    sameTables r.chr s.cfg.chr) ∧
  (∀ (i : Instr) (s t : State), exec i s = .next t → t.cfg = s.cfg) ∧
  ∀ s t : State, step s = .next t → t.cfg = s.cfg

/-- 10_state.md R65, R66: only WAIT advances the clock, which never goes back, and the trace only grows.
So do the model's own replies and draw counts, and no operation reaches into the host's stream (log 1, 7,
10). That WAIT alone moves the clock is the spec's own decision D9. -/
def Obligations.ClockAndTracesOnlyGrow : Prop :=
  ∀ (i : Instr) (s t : State), exec i s = .next t →
    ((∀ n, i ≠ .wait n) → t.now = s.now) ∧
    (∀ n, i = .wait n → t.now = s.now + n.toNat) ∧
    s.out <+: t.out ∧ t.stream = s.stream ∧
    s.inputReplies <+: t.inputReplies ∧ s.chrReplies <+: t.chrReplies ∧
    s.inputDraws ≤ t.inputDraws ∧ s.chrDraws ≤ t.chrDraws

/-- Which operations may change which unit; RESET may change them all. The strobe unit: 10_state.md R30 to
R34 and, for WAIT, whose expiry is IC24EXP, 70_reset_and_hazards.md R318; the lamp and card latches and
the lamp cells: R40 to R43; the LED cells and the alpha lines: R44, R45; the characteriser: R50 to R52 and
44_characteriser_barcrest.md R220; the reel and meter latches: R60 to R63; that a unit's state has no
other writer: 00_scope.md R1; 20_memory.md R78. The carrier of card data (LAMPX) is the spec's own
decision D11, the led2 cells D15 (log 12). -/
def Obligations.UnitOwnership : Prop :=
  ∀ (i : Instr) (s t : State), exec i s = .next t → i ≠ .reset →
    (t.strobe ≠ s.strobe → isGateOrG1Write i = true ∨ (∃ l, i = .setinhG2A l) ∨
      (∃ l, i = .setinhG2B l) ∨ (∃ n, i = .wait n) ∨ i = .ic24exp) ∧
    (t.lamps ≠ s.lamps → (∃ d, i = .lampa d) ∨ (∃ d, i = .lampb d) ∨ (∃ d, i = .lampx d)) ∧
    (t.leds.led ≠ s.leds.led → ∃ d, i = .ledw d) ∧
    (t.leds.led2 ≠ s.leds.led2 → (∃ d, i = .lampx d) ∧ s.cfg.lampExtender = .largeCardB) ∧
    (t.leds.alphaClk ≠ s.leds.alphaClk → ∃ l, i = .alphaclk l) ∧
    (t.leds.alphaDat ≠ s.leds.alphaDat → ∃ l, i = .alphadat l) ∧
    (t.chr ≠ s.chr → (∃ o c, i = .chrw o c) ∨ (∃ o, i = .chrr o)) ∧
    (t.reel ≠ s.reel → (∃ d, i = .meterw d) ∨ (∃ d, i = .triacw d) ∨ i = .tick)

/-- 20_memory.md R87: a characteriser operation commutes with every strobe, lamp, LED, input and meter
operation: the same units, the same bytes given back and the same events, up to the order of the events
the two emit. That both orders draw the same bytes rests on the model's form of the draws: what a unit
draws next depends on how many draws that unit has taken and on nothing another unit did (log 7, 8, 9);
the replies of each unit are the model's too (log 10). -/
def Obligations.CharacteriserIndependentOfOtherUnits : Prop :=
  ∀ (c i : Instr) (s t : State), isChrOp c = true → isStrobeLampLedInputOrMeterOp i = true →
    execAll [c, i] s = .next t →
    ∃ u, execAll [i, c] s = .next u ∧ u.cfg = t.cfg ∧ u.strobe = t.strobe ∧
      u.lamps = t.lamps ∧ u.leds = t.leds ∧ u.chr = t.chr ∧ u.reel = t.reel ∧ u.now = t.now ∧
      u.out.Perm t.out ∧ u.stream = t.stream ∧
      u.inputReplies = t.inputReplies ∧ u.chrReplies = t.chrReplies ∧
      u.inputDraws = t.inputDraws ∧ u.chrDraws = t.chrDraws

/-! ## Words -/

/-- 30_encoding.md R100 to R102: decoding the word of any operation gives that operation. The word and its
map are the spec's own decision D1. -/
def Obligations.DecodeOfEncode : Prop := ∀ i : Instr, decode (encode i) = .ok i

/-- 30_encoding.md R100 to R102, R111: a word that decodes is the word of its operation, so each operation
has one word and every other word is reserved. The word and its map are the spec's own decision D1, the
reserved words its decision D35. -/
def Obligations.EncodeOfDecode : Prop :=
  ∀ (w : OpWord) (i : Instr), decode w = .ok i → encode i = w

/-- 30_encoding.md R102, R111: a word decodes exactly when it matches a row of the operation map, and then
to the operation of that row. The word and its map are the spec's own decision D1, the reserved words its
decision D35. -/
def Obligations.DecodeFollowsOperationMap : Prop :=
  ∀ w : OpWord,
    (∀ i, decode w = .ok i → w &&& rowMask i = rowMatch i) ∧
    ∀ j, w &&& rowMask j = rowMatch j →
      ∃ i, decode w = .ok i ∧ rowMatch i = rowMatch j ∧ rowMask i = rowMask j

/-- 30_encoding.md R102, R120: words of the operation map and worked encodings; and some reserved words of
R111, whose decoder answers only 'invalid': that the refusals are told apart by the names `reservedOp`,
`reservedSel` and `reservedBits` is the model's choice (log 23). The word is the spec's own decision D1,
the reserved words its decision D35. -/
def Obligations.DecodedWords : Prop :=
  decode 0x110001 = .ok (.setgateB true) ∧ decode 0x200001 = .ok (.setinhG1 true) ∧
  decode 0x3000FF = .ok (.lampa 0xFF) ∧ decode 0x40003F = .ok (.ledw 0x3F) ∧
  decode 0x520000 = .ok .aux2r ∧ decode 0x600224 = .ok (.chrw 2 0x24) ∧
  decode 0x610300 = .ok (.chrr 3) ∧ decode 0x720000 = .ok .tick ∧
  decode 0xE126AC = .ok (.wait 9900) ∧
  decode 0x000000 = .error .reservedOp ∧ decode 0x130000 = .error .reservedSel ∧
  decode 0x610001 = .error .reservedBits

/-- 30_encoding.md R103: IC24EXP is the step of the IC24 agent, taken without a word of the host's; its
word exists for traces, and the host-side decoder refuses it in a program. That a due expiry is the step,
before any word, is 00_scope.md R7 and 60_exceptions.md R287 as log 2 reads them; the name of the
decoder's error is the model's (log 23). The word and the host's ban on it are the spec's own decision D1,
that an expiry precedes the host at its instant its decision D8 (log 24). -/
def Obligations.ExpiryIsNoHostOperation : Prop :=
  (∀ s : State, expiryIsDue s → step s = exec .ic24exp s) ∧
  encode .ic24exp = 0xF00000 ∧ decode 0xF00000 = .ok .ic24exp ∧
  decodeHost 0xF00000 = .error .internalEvent

/-! ## Steps and runs -/

/-- 00_scope.md R7; 60_exceptions.md R287: a due expiry goes first; else the next word of the host's
stream runs, a reserved one and the word of IC24EXP are refused (30_encoding.md R103, R111), and without a
word SCB holds its state. The stream and the idle step are the model's (log 1, 2). That the expiry goes
first is the spec's own decision D8 (log 24), the refusal of reserved words its decision D35; the names of
the refusals are the model's (log 23). -/
def Obligations.StepRunsDecodedOperation : Prop :=
  ∀ s : State,
    (expiryIsDue s → step s = exec .ic24exp s) ∧
    (¬ expiryIsDue s →
      (∀ w rest i, s.stream = w :: rest → decode w = .ok i → i ≠ .ic24exp →
        step s = exec i { s with stream := rest }) ∧
      (∀ w rest e, s.stream = w :: rest → decode w = .error e →
        step s = .refused (.invalidWord e)) ∧
      (∀ rest, s.stream = 0xF00000 :: rest → step s = .refused (.invalidWord .internalEvent)) ∧
      (s.stream = [] → step s = .next s))

/-- Log 1, 2 (the model's choice): the very next step after placing a host operation's word runs exactly
that operation on the state as it was; after placing the word of IC24EXP it is IC24's step. -/
def Obligations.PlacedWordRunsNext : Prop :=
  (∀ (s : State) (i : Instr), ¬ expiryIsDue s → i ≠ .ic24exp →
    step (s.withFetchWord 24 (encode i).toNat) = exec i s) ∧
  ∀ s : State, ∃ t, step (s.withFetchWord 24 0xF00000) = .next t ∧
    t.strobe.strobeActive = false ∧ t.strobe.ic24Deadline = none

/-- 60_exceptions.md R280, R284, R285; 42_led_alpha.md R193; 46_reel_meter_mux.md R269: nothing faults;
LEDW under an LED card and TICK under a mode without a table are refused; every other operation of the
host completes in every state. The two refusals are the spec's own decisions D17 (log 19) and D29 (log
20), that `chr = NONE` is legal its decision D32. -/
def Obligations.OnlyUndocumentedFormsRefused : Prop :=
  ∀ (i : Instr) (s : State),
    (∀ f, exec i s ≠ .fault f) ∧ (∀ f, step s ≠ .fault f) ∧
    (∀ d, s.cfg.ledExtender ≠ .none → exec (.ledw d) s = .refused .ledCardUndocumented) ∧
    (modeHasNoTable s.cfg.reelMode → exec .tick s = .refused .reelModeUndocumented) ∧
    ((∀ d, i = .ledw d → s.cfg.ledExtender = .none) →
      (i = .tick → ¬ modeHasNoTable s.cfg.reelMode) → i ≠ .ic24exp →
      ∃ t, exec i s = .next t)

/-- Every step keeps a sound state sound: the cell arrays canonical and within their spaces, the column
what the lines make of it, the pulse and its deadline together and on time, the BwB unit consistent
(10_state.md R34; 20_memory.md R71; 40_strobe_sequencer.md R154, R155; 45_characteriser_bwb.md R250;
70_reset_and_hazards.md R318). The cells a card uses are the spec's own decisions D11, D13, D14, D15 (log
12), the held column D3 (log 17), the inhibit over G1 D4, the counter's ceiling D25; the canonical form of
the cells is the model's (log 13). -/
def Obligations.StepKeepsSoundness : Prop :=
  ∀ s t : State, s.Sound → step s = .next t → t.Sound

/-- The state after reset is sound. The reset values are those of 10_state.md R68, most of them the spec's
own decisions (log 11); the configuration is the model's choice (log 4). -/
def Obligations.ResetIsSound : Prop := State.reset.Sound

/-- Every state a session can be in is sound, and no expiry is ever late: whatever configuration load
accepts, whatever words the host issues (70_reset_and_hazards.md R310, R318). That no expiry is late
follows from the spec's own decisions D8 and D9 (log 24); the host's stream is the model's form of the
host (log 1, 2). -/
def Obligations.ReachableStatesAreSound : Prop :=
  ∀ s : State, Reachable s → s.Sound ∧ ¬ expiryIsDue s
end

