-- ==== Sys2Proof/Laws/Memory.lean ====
section
/-! SUPPORT. The laws of a cell array: reading what was written, the canonical form, and that two
canonical arrays which read alike are equal. -/

namespace Sys2Proof.Machine

variable {β : Type}

@[simp] theorem read_nil (blank : β) (a : Nat) : Memory.read blank [] a = blank := rfl

theorem read_cons (blank : β) (p : Nat × β) (m : Memory β) (a : Nat) :
    Memory.read blank (p :: m) a = if p.1 = a then p.2 else Memory.read blank m a := rfl

/-- An address with no entry reads as the blank value. -/
theorem read_of_unlisted (blank : β) (m : Memory β) (a : Nat) (h : ∀ p ∈ m, p.1 ≠ a) :
    Memory.read blank m a = blank := by
  induction m with
  | nil => rfl
  | cons p m ih =>
    rw [read_cons, if_neg (h p (by simp))]
    exact ih fun q hq => h q (by simp [hq])

/-- Dropping the entries of one address changes no other address. -/
theorem read_filter_ne (blank : β) (m : Memory β) (a b : Nat) (h : b ≠ a) :
    Memory.read blank (m.filter fun p => p.1 ≠ a) b = Memory.read blank m b := by
  induction m with
  | nil => rfl
  | cons p m ih =>
    by_cases hp : p.1 = a
    · have hb : p.1 ≠ b := fun e => h (e.symm.trans hp)
      rw [List.filter_cons_of_neg (by simpa using hp), read_cons, if_neg hb, ih]
    · rw [List.filter_cons_of_pos (by simpa using hp), read_cons, read_cons, ih]

theorem filter_ne_unlisted (m : Memory β) (a : Nat) : ∀ p ∈ m.filter fun p => p.1 ≠ a, p.1 ≠ a := by
  intro p hp
  simpa using (List.mem_filter.mp hp).2

/-- Placing an entry at an unlisted address: that address reads the value, every other as before. -/
theorem read_place (blank : β) (m : Memory β) (a : Nat) (v : β) (b : Nat)
    (h : ∀ p ∈ m, p.1 ≠ a) :
    Memory.read blank (Memory.place m a v) b = if a = b then v else Memory.read blank m b := by
  induction m with
  | nil => simp [Memory.place, read_cons]
  | cons p m ih =>
    have hp : p.1 ≠ a := h p (by simp)
    have ih' := ih fun q hq => h q (by simp [hq])
    unfold Memory.place
    split
    · rw [read_cons]
    · rw [read_cons, read_cons, ih']
      by_cases hb : p.1 = b
      · have : a ≠ b := fun e => hp (hb.trans e.symm)
        simp [hb, this]
      · simp [hb]

/-- The law of the cell array: a write is read back, and leaves every other address alone. -/
theorem read_write [DecidableEq β] (blank : β) (m : Memory β) (a : Nat) (v : β) (b : Nat) :
    Memory.read blank (Memory.write blank m a v) b = if a = b then v else Memory.read blank m b := by
  unfold Memory.write
  by_cases hv : v = blank
  · by_cases hb : a = b
    · subst hb
      simp only [hv, if_true]
      exact read_of_unlisted _ _ _ (filter_ne_unlisted m a)
    · simp only [hv, if_true, if_neg hb]
      exact read_filter_ne _ _ _ _ (Ne.symm hb)
  · simp only [if_neg hv]
    rw [read_place _ _ _ _ _ (filter_ne_unlisted m a)]
    by_cases hb : a = b
    · simp [hb]
    · simp only [if_neg hb]
      exact read_filter_ne _ _ _ _ (Ne.symm hb)

theorem mem_place (m : Memory β) (a : Nat) (v : β) (p : Nat × β) :
    p ∈ Memory.place m a v ↔ p = (a, v) ∨ p ∈ m := by
  induction m with
  | nil => simp [Memory.place]
  | cons q m ih =>
    unfold Memory.place
    split
    · simp
    · simp only [List.mem_cons, ih]
      tauto

/-- The entries of a written array are the written one and old ones. -/
theorem mem_write [DecidableEq β] (blank : β) (m : Memory β) (a : Nat) (v : β) (p : Nat × β)
    (h : p ∈ Memory.write blank m a v) : p = (a, v) ∨ p ∈ m := by
  unfold Memory.write at h
  split at h
  · exact .inr (List.mem_filter.mp h).1
  · rcases (mem_place _ _ _ _).mp h with h | h
    · exact .inl h
    · exact .inr (List.mem_filter.mp h).1

theorem pairwise_place (m : Memory β) (a : Nat) (v : β) (hm : m.Pairwise fun p q => p.1 < q.1)
    (h : ∀ p ∈ m, p.1 ≠ a) : (Memory.place m a v).Pairwise fun p q => p.1 < q.1 := by
  induction m with
  | nil => simp [Memory.place]
  | cons p m ih =>
    have hp : p.1 ≠ a := h p (by simp)
    rw [List.pairwise_cons] at hm
    unfold Memory.place
    split
    · rename_i hlt
      rw [List.pairwise_cons, List.pairwise_cons]
      refine ⟨?_, hm⟩
      intro q hq
      rcases List.mem_cons.mp hq with rfl | hq
      · exact hlt
      · exact Nat.lt_trans hlt (hm.1 q hq)
    · rename_i hlt
      rw [List.pairwise_cons]
      refine ⟨?_, ih hm.2 fun q hq => h q (by simp [hq])⟩
      intro q hq
      rcases (mem_place _ _ _ _).mp hq with rfl | hq
      · show p.1 < a
        omega
      · exact hm.1 q hq

/-- A write keeps the canonical form. -/
theorem wf_write [DecidableEq β] (blank : β) (m : Memory β) (a : Nat) (v : β)
    (h : Memory.wf blank m) : Memory.wf blank (Memory.write blank m a v) := by
  have hf : (m.filter fun p => p.1 ≠ a).Pairwise fun p q => p.1 < q.1 := h.1.filter _
  unfold Memory.write
  by_cases hv : v = blank
  · simp only [hv, if_true]
    exact ⟨hf, fun p hp => h.2 p (List.mem_filter.mp hp).1⟩
  · simp only [if_neg hv]
    refine ⟨pairwise_place _ _ _ hf (filter_ne_unlisted m a), ?_⟩
    intro p hp
    rcases (mem_place _ _ _ _).mp hp with rfl | hp
    · exact hv
    · exact h.2 p (List.mem_filter.mp hp).1

/-- An empty array, which is what reset leaves, is canonical. -/
theorem wf_nil (blank : β) : Memory.wf blank ([] : Memory β) := by simp [Memory.wf]

theorem read_of_mem (blank : β) (m : Memory β) (h : m.Pairwise fun p q => p.1 < q.1)
    (p : Nat × β) (hp : p ∈ m) : Memory.read blank m p.1 = p.2 := by
  induction m with
  | nil => simp at hp
  | cons q m ih =>
    rw [List.pairwise_cons] at h
    rw [read_cons]
    rcases List.mem_cons.mp hp with rfl | hp
    · simp
    · have := h.1 p hp
      rw [if_neg (by omega)]
      exact ih h.2 hp

/-- Two canonical arrays that read alike are equal. -/
theorem eq_of_read_eq (blank : β) (m n : Memory β) (hm : Memory.wf blank m)
    (hn : Memory.wf blank n) (h : ∀ a, Memory.read blank m a = Memory.read blank n a) : m = n := by
  have sub : ∀ x y : Memory β, Memory.wf blank x → Memory.wf blank y →
      (∀ a, Memory.read blank x a = Memory.read blank y a) → ∀ p ∈ x, p ∈ y := by
    intro x y hx hy hxy p hp
    by_contra hno
    have hr : Memory.read blank y p.1 = p.2 := by rw [← hxy]; exact read_of_mem _ _ hx.1 p hp
    have hl : ¬ ∀ q ∈ y, q.1 ≠ p.1 := by
      intro hall
      rw [read_of_unlisted _ _ _ hall] at hr
      exact hx.2 p hp hr.symm
    push Not at hl
    obtain ⟨q, hq, he⟩ := hl
    have hq2 : q.2 = p.2 := by rw [← read_of_mem blank y hy.1 q hq, he, hr]
    exact hno (by rwa [← show q = p from Prod.ext he hq2])
  exact List.Pairwise.eq_of_mem_iff (r := fun p q : Nat × β => p.1 < q.1) hm.1 hn.1
    fun p => ⟨sub m n hm hn h p, sub n m hn hm (fun a => (h a).symm) p⟩

/-! ## A group of lamp cells (41_lamp_matrix.md R162) -/

/-- Every cell of the group takes its data bit, every other cell stays. -/
theorem read_writeBits {w : Nat} (m : Memory Bool) (base : Nat) (data : BitVec w) (n k : Nat) :
    Memory.read lampOff (Memory.writeBits m base data n) k =
      if base ≤ k ∧ k < base + n then data.getLsbD (k - base) else Memory.read lampOff m k := by
  induction n with
  | zero => simp [Memory.writeBits]
  | succ n ih =>
    rw [Memory.writeBits, read_write, ih]
    by_cases hk : base + n = k
    · subst hk
      have h1 : base ≤ base + n ∧ base + n < base + (n + 1) := by omega
      simp [h1]
    · by_cases h1 : base ≤ k ∧ k < base + n
      · have h2 : base ≤ k ∧ k < base + (n + 1) := by omega
        simp [hk, h1, h2]
      · have h2 : ¬(base ≤ k ∧ k < base + (n + 1)) := by omega
        simp [hk, h1, h2]

theorem wf_writeBits {w : Nat} (m : Memory Bool) (base : Nat) (data : BitVec w) (n : Nat)
    (h : Memory.wf lampOff m) : Memory.wf lampOff (Memory.writeBits m base data n) := by
  induction n with
  | zero => exact h
  | succ n ih => exact wf_write _ _ _ _ ih

theorem mem_writeBits {w : Nat} (m : Memory Bool) (base : Nat) (data : BitVec w) (n : Nat)
    (p : Nat × Bool) (h : p ∈ Memory.writeBits m base data n) :
    (base ≤ p.1 ∧ p.1 < base + n) ∨ p ∈ m := by
  induction n with
  | zero => exact .inr h
  | succ n ih =>
    rcases mem_write _ _ _ _ _ h with rfl | h
    · exact .inl (by simp)
    · rcases ih h with h | h
      · exact .inl (by omega)
      · exact .inr h

end Sys2Proof.Machine
end

