-- ==== Sys2Proof/Laws/Operands.lean ====
section
/-! SUPPORT. What each operand form can answer, said once. -/

namespace Sys2Proof.Machine

/-! ## Small card and large card bytes (30_encoding.md R114, R115) -/

/-- Lamp line `i` of a small-card byte is lit when `data[3+i] = 0` (30_encoding.md R114). -/
theorem smallCardValue_getLsbD (data : Byte) (i : Nat) (h : i < 5) :
    (smallCardValue data).getLsbD i = !data.getLsbD (3 + i) := by
  have key : ∀ x : BitVec 5, 0x1F#5 - x = ~~~x := by decide
  unfold smallCardValue
  rw [key, BitVec.getLsbD_not]
  simp [h]

theorem smallCardColumn_toNat (data : Byte) : (smallCardColumn data).toNat = data.toNat % 8 := by
  simp [smallCardColumn]

/-! ## `aux_compose` (43_input_scanner.md R209) -/

/-- A list whose every case agrees with `f` answers `f` at any arguments it holds. -/
theorem composeAux_of_agree (cases : List AuxCase) (f : AuxPort → Byte → Fin 12 → Byte)
    (port : AuxPort) (source : Byte) (pocket : Fin 12)
    (hf : ∀ c ∈ cases, c.result = f c.port c.source c.pocket)
    (hc : ∃ c ∈ cases, c.port = port ∧ c.source = source ∧ c.pocket = pocket) :
    composeAux cases port source pocket = f port source pocket := by
  unfold composeAux
  split
  · rename_i c h
    have hp := List.find?_some h
    simp only [Bool.and_eq_true, beq_iff_eq] at hp
    obtain ⟨⟨rfl, rfl⟩, rfl⟩ := hp
    exact hf c (List.mem_of_find?_eq_some h)
  · rename_i h
    obtain ⟨c, hm, rfl, rfl, rfl⟩ := hc
    exact absurd (List.find?_eq_none.mp h c hm) (by simp)

/-- Every total function of the three arguments is some configuration's composition. -/
theorem composeAux_tabulateAux (f : AuxPort → Byte → Fin 12 → Byte) :
    composeAux (tabulateAux f) = f := by
  funext port source pocket
  apply composeAux_of_agree
  · intro c hc
    simp only [tabulateAux, List.mem_flatMap, List.mem_map] at hc
    obtain ⟨_, _, _, _, _, _, rfl⟩ := hc
    rfl
  · refine ⟨⟨port, source, pocket, f port source pocket⟩, ?_, rfl, rfl, rfl⟩
    simp only [tabulateAux, List.mem_flatMap, List.mem_map]
    exact ⟨port, by cases port <;> simp, source.toFin, List.mem_finRange _, pocket,
      List.mem_finRange _, rfl⟩

/-- Without a case the composition is the projection on the byte (92_eei_decisions.md D20's default). -/
@[simp] theorem composeAux_nil (port : AuxPort) (source : Byte) (pocket : Fin 12) :
    composeAux [] port source pocket = source := rfl

/-! ## Calls (30_encoding.md R116; 44_characteriser_barcrest.md R223, R224) -/

/-- A call selects lamp column `n` exactly when it is `n*n`. -/
theorem lampColumnOfCall_eq_some (call : Byte) (n : BitVec 3) :
    lampColumnOfCall call = some n ↔ n.toNat * n.toNat = call.toNat := by
  revert n call; decide

/-- A call is unrecognised exactly when it is no such square. -/
theorem lampColumnOfCall_eq_none (call : Byte) :
    lampColumnOfCall call = none ↔ ∀ n : BitVec 3, n.toNat * n.toNat ≠ call.toNat := by
  revert call; decide

/-- The scan answers the least matching row at or after its start. -/
theorem scanForward_eq_some (tbl : Vector ChrRow 72) (start r : BitVec 6) (call : Byte)
    (h : scanForward tbl start call = some r) :
    start.toNat ≤ r.toNat ∧
      (tbl[r.toNat]'(Nat.lt_trans r.isLt (by decide))).call = call ∧
      ∀ j : Fin 64, start.toNat ≤ j.val → j.val < r.toNat →
        (tbl[j.val]'(Nat.lt_trans j.isLt (by decide))).call ≠ call := by
  unfold scanForward at h
  rw [Option.map_eq_some_iff] at h
  obtain ⟨i, hi, rfl⟩ := h
  rw [List.find?_eq_some_iff_getElem] at hi
  obtain ⟨hp, n, hn, hni, hlt⟩ := hi
  have hin : i.val = n := by
    rw [← hni]; simp
  have hto : (BitVec.ofNat 6 i.val).toNat = i.val := by
    rw [BitVec.toNat_ofNat]; exact Nat.mod_eq_of_lt i.isLt
  simp only [Bool.and_eq_true, decide_eq_true_eq, beq_iff_eq] at hp
  refine ⟨by rw [hto]; exact hp.1, by simpa only [hto] using hp.2, ?_⟩
  intro j hj hjr
  rw [hto, hin] at hjr
  have := hlt j.val hjr
  simp only [List.getElem_finRange, Fin.cast_mk, Fin.eta, Bool.not_eq_true', Bool.and_eq_false_iff,
    decide_eq_false_iff_not] at this
  rcases this with h | h
  · exact absurd hj h
  · simpa using h

/-- Without an answer no row at or after the start matches. -/
theorem scanForward_eq_none (tbl : Vector ChrRow 72) (start : BitVec 6) (call : Byte)
    (h : scanForward tbl start call = none) (j : Fin 64) (hj : start.toNat ≤ j.val) :
    (tbl[j.val]'(Nat.lt_trans j.isLt (by decide))).call ≠ call := by
  unfold scanForward at h
  rw [Option.map_eq_none_iff, List.find?_eq_none] at h
  have := h j (List.mem_finRange j)
  simp only [Bool.and_eq_true, decide_eq_true_eq, beq_iff_eq, not_and] at this
  exact this hj

/-! ## BwB (45_characteriser_bwb.md R242, R249) -/

theorem isBaseOffset_iff (offset : Byte) :
    isBaseOffset offset = true ↔ offset.toNat % 64 = 0 := by
  revert offset; decide

/-- A checkpoint answers row `k` at counter `7*k + 6`, and no other counter is one. -/
theorem checkpointResponse_eq (t : BwbTables) (counter : Fin 36) :
    checkpointResponse t counter =
      if counter.val = 6 then some t.gameResp[0]
      else if counter.val = 13 then some t.gameResp[1]
      else if counter.val = 20 then some t.gameResp[2]
      else if counter.val = 27 then some t.gameResp[3]
      else if counter.val = 34 then some t.gameResp[4]
      else none := by
  obtain ⟨c, hc⟩ := counter
  unfold checkpointResponse checkpoints
  interval_cases c <;> simp

/-! ## The meter-drive byte (30_encoding.md R119) -/

/-- The nibble is `d[7] : d[5] : d[3] : d[0]`. -/
theorem reelNibble_eq (d : Byte) :
    reelNibble d = BitVec.ofBool (d.getLsbD 7) ++ BitVec.ofBool (d.getLsbD 5)
      ++ BitVec.ofBool (d.getLsbD 3) ++ BitVec.ofBool (d.getLsbD 0) := by
  revert d; decide

/-- All eight meters are called, in ascending order, each with its bit (46_reel_meter_mux.md R268). -/
theorem meterPulses_eq (m : Byte) :
    meterPulses m =
      [.meterPulse 0 (m.getLsbD 0), .meterPulse 1 (m.getLsbD 1), .meterPulse 2 (m.getLsbD 2),
        .meterPulse 3 (m.getLsbD 3), .meterPulse 4 (m.getLsbD 4), .meterPulse 5 (m.getLsbD 5),
        .meterPulse 6 (m.getLsbD 6), .meterPulse 7 (m.getLsbD 7)] := rfl

end Sys2Proof.Machine
end

