-- ==== Sys2Proof/Laws/State.lean ====
section
/-! SUPPORT. One lemma per field per update of the state: no later proof unfolds a record update. -/

namespace Sys2Proof.Machine

section updates

variable (s : State) (es : List Event) (v : Byte) (w : OpWord) (c : Cfg)

/-! `State.emit` -/

@[simp] theorem emit_cfg : (s.emit es).cfg = s.cfg := rfl
@[simp] theorem emit_strobe : (s.emit es).strobe = s.strobe := rfl
@[simp] theorem emit_lamps : (s.emit es).lamps = s.lamps := rfl
@[simp] theorem emit_leds : (s.emit es).leds = s.leds := rfl
@[simp] theorem emit_chr : (s.emit es).chr = s.chr := rfl
@[simp] theorem emit_reel : (s.emit es).reel = s.reel := rfl
@[simp] theorem emit_now : (s.emit es).now = s.now := rfl
@[simp] theorem emit_out : (s.emit es).out = s.out ++ es := rfl
@[simp] theorem emit_stream : (s.emit es).stream = s.stream := rfl
@[simp] theorem emit_inputReplies : (s.emit es).inputReplies = s.inputReplies := rfl
@[simp] theorem emit_chrReplies : (s.emit es).chrReplies = s.chrReplies := rfl
@[simp] theorem emit_inputDraws : (s.emit es).inputDraws = s.inputDraws := rfl
@[simp] theorem emit_chrDraws : (s.emit es).chrDraws = s.chrDraws := rfl

/-! `State.replyInput` -/

@[simp] theorem replyInput_cfg : (s.replyInput v).cfg = s.cfg := rfl
@[simp] theorem replyInput_strobe : (s.replyInput v).strobe = s.strobe := rfl
@[simp] theorem replyInput_lamps : (s.replyInput v).lamps = s.lamps := rfl
@[simp] theorem replyInput_leds : (s.replyInput v).leds = s.leds := rfl
@[simp] theorem replyInput_chr : (s.replyInput v).chr = s.chr := rfl
@[simp] theorem replyInput_reel : (s.replyInput v).reel = s.reel := rfl
@[simp] theorem replyInput_now : (s.replyInput v).now = s.now := rfl
@[simp] theorem replyInput_out : (s.replyInput v).out = s.out := rfl
@[simp] theorem replyInput_stream : (s.replyInput v).stream = s.stream := rfl
@[simp] theorem replyInput_inputReplies :
    (s.replyInput v).inputReplies = s.inputReplies ++ [v] := rfl
@[simp] theorem replyInput_chrReplies : (s.replyInput v).chrReplies = s.chrReplies := rfl
@[simp] theorem replyInput_inputDraws : (s.replyInput v).inputDraws = s.inputDraws := rfl
@[simp] theorem replyInput_chrDraws : (s.replyInput v).chrDraws = s.chrDraws := rfl

/-! `State.replyChr` -/

@[simp] theorem replyChr_cfg : (s.replyChr v).cfg = s.cfg := rfl
@[simp] theorem replyChr_strobe : (s.replyChr v).strobe = s.strobe := rfl
@[simp] theorem replyChr_lamps : (s.replyChr v).lamps = s.lamps := rfl
@[simp] theorem replyChr_leds : (s.replyChr v).leds = s.leds := rfl
@[simp] theorem replyChr_chr : (s.replyChr v).chr = s.chr := rfl
@[simp] theorem replyChr_reel : (s.replyChr v).reel = s.reel := rfl
@[simp] theorem replyChr_now : (s.replyChr v).now = s.now := rfl
@[simp] theorem replyChr_out : (s.replyChr v).out = s.out := rfl
@[simp] theorem replyChr_stream : (s.replyChr v).stream = s.stream := rfl
@[simp] theorem replyChr_inputReplies : (s.replyChr v).inputReplies = s.inputReplies := rfl
@[simp] theorem replyChr_chrReplies : (s.replyChr v).chrReplies = s.chrReplies ++ [v] := rfl
@[simp] theorem replyChr_inputDraws : (s.replyChr v).inputDraws = s.inputDraws := rfl
@[simp] theorem replyChr_chrDraws : (s.replyChr v).chrDraws = s.chrDraws := rfl

/-! `State.drawnInput` -/

@[simp] theorem drawnInput_cfg : (s.drawnInput).cfg = s.cfg := rfl
@[simp] theorem drawnInput_strobe : (s.drawnInput).strobe = s.strobe := rfl
@[simp] theorem drawnInput_lamps : (s.drawnInput).lamps = s.lamps := rfl
@[simp] theorem drawnInput_leds : (s.drawnInput).leds = s.leds := rfl
@[simp] theorem drawnInput_chr : (s.drawnInput).chr = s.chr := rfl
@[simp] theorem drawnInput_reel : (s.drawnInput).reel = s.reel := rfl
@[simp] theorem drawnInput_now : (s.drawnInput).now = s.now := rfl
@[simp] theorem drawnInput_out : (s.drawnInput).out = s.out := rfl
@[simp] theorem drawnInput_stream : (s.drawnInput).stream = s.stream := rfl
@[simp] theorem drawnInput_inputReplies : (s.drawnInput).inputReplies = s.inputReplies := rfl
@[simp] theorem drawnInput_chrReplies : (s.drawnInput).chrReplies = s.chrReplies := rfl
@[simp] theorem drawnInput_inputDraws : (s.drawnInput).inputDraws = s.inputDraws + 1 := rfl
@[simp] theorem drawnInput_chrDraws : (s.drawnInput).chrDraws = s.chrDraws := rfl

/-! `State.drawnChr` -/

@[simp] theorem drawnChr_cfg : (s.drawnChr).cfg = s.cfg := rfl
@[simp] theorem drawnChr_strobe : (s.drawnChr).strobe = s.strobe := rfl
@[simp] theorem drawnChr_lamps : (s.drawnChr).lamps = s.lamps := rfl
@[simp] theorem drawnChr_leds : (s.drawnChr).leds = s.leds := rfl
@[simp] theorem drawnChr_chr : (s.drawnChr).chr = s.chr := rfl
@[simp] theorem drawnChr_reel : (s.drawnChr).reel = s.reel := rfl
@[simp] theorem drawnChr_now : (s.drawnChr).now = s.now := rfl
@[simp] theorem drawnChr_out : (s.drawnChr).out = s.out := rfl
@[simp] theorem drawnChr_stream : (s.drawnChr).stream = s.stream := rfl
@[simp] theorem drawnChr_inputReplies : (s.drawnChr).inputReplies = s.inputReplies := rfl
@[simp] theorem drawnChr_chrReplies : (s.drawnChr).chrReplies = s.chrReplies := rfl
@[simp] theorem drawnChr_inputDraws : (s.drawnChr).inputDraws = s.inputDraws := rfl
@[simp] theorem drawnChr_chrDraws : (s.drawnChr).chrDraws = s.chrDraws + 1 := rfl

/-! `State.issue` -/

@[simp] theorem issue_cfg : (s.issue w).cfg = s.cfg := rfl
@[simp] theorem issue_strobe : (s.issue w).strobe = s.strobe := rfl
@[simp] theorem issue_lamps : (s.issue w).lamps = s.lamps := rfl
@[simp] theorem issue_leds : (s.issue w).leds = s.leds := rfl
@[simp] theorem issue_chr : (s.issue w).chr = s.chr := rfl
@[simp] theorem issue_reel : (s.issue w).reel = s.reel := rfl
@[simp] theorem issue_now : (s.issue w).now = s.now := rfl
@[simp] theorem issue_out : (s.issue w).out = s.out := rfl
@[simp] theorem issue_stream : (s.issue w).stream = s.stream ++ [w] := rfl
@[simp] theorem issue_inputReplies : (s.issue w).inputReplies = s.inputReplies := rfl
@[simp] theorem issue_chrReplies : (s.issue w).chrReplies = s.chrReplies := rfl
@[simp] theorem issue_inputDraws : (s.issue w).inputDraws = s.inputDraws := rfl
@[simp] theorem issue_chrDraws : (s.issue w).chrDraws = s.chrDraws := rfl

/-! `ic24Expire` -/

@[simp] theorem ic24Expire_cfg : (ic24Expire s).cfg = s.cfg := rfl
@[simp] theorem ic24Expire_strobe : (ic24Expire s).strobe = s.strobe.expire s.cfg := rfl
@[simp] theorem ic24Expire_lamps : (ic24Expire s).lamps = s.lamps := rfl
@[simp] theorem ic24Expire_leds : (ic24Expire s).leds = s.leds := rfl
@[simp] theorem ic24Expire_chr : (ic24Expire s).chr = s.chr := rfl
@[simp] theorem ic24Expire_reel : (ic24Expire s).reel = s.reel := rfl
@[simp] theorem ic24Expire_now : (ic24Expire s).now = s.now := rfl
@[simp] theorem ic24Expire_out : (ic24Expire s).out = s.out := rfl
@[simp] theorem ic24Expire_stream : (ic24Expire s).stream = s.stream := rfl
@[simp] theorem ic24Expire_inputReplies : (ic24Expire s).inputReplies = s.inputReplies := rfl
@[simp] theorem ic24Expire_chrReplies : (ic24Expire s).chrReplies = s.chrReplies := rfl
@[simp] theorem ic24Expire_inputDraws : (ic24Expire s).inputDraws = s.inputDraws := rfl
@[simp] theorem ic24Expire_chrDraws : (ic24Expire s).chrDraws = s.chrDraws := rfl

/-! `State.fresh` -/

@[simp] theorem fresh_cfg : (State.fresh c).cfg = c := rfl
@[simp] theorem fresh_strobe : (State.fresh c).strobe = .atReset := rfl
@[simp] theorem fresh_lamps : (State.fresh c).lamps = .atReset := rfl
@[simp] theorem fresh_leds : (State.fresh c).leds = .atReset := rfl
@[simp] theorem fresh_chr : (State.fresh c).chr = .atReset := rfl
@[simp] theorem fresh_reel : (State.fresh c).reel = .atReset := rfl
@[simp] theorem fresh_now : (State.fresh c).now = 0 := rfl
@[simp] theorem fresh_out : (State.fresh c).out = [] := rfl
@[simp] theorem fresh_stream : (State.fresh c).stream = [] := rfl
@[simp] theorem fresh_inputReplies : (State.fresh c).inputReplies = [] := rfl
@[simp] theorem fresh_chrReplies : (State.fresh c).chrReplies = [] := rfl
@[simp] theorem fresh_inputDraws : (State.fresh c).inputDraws = 0 := rfl
@[simp] theorem fresh_chrDraws : (State.fresh c).chrDraws = 0 := rfl

end updates

end Sys2Proof.Machine
end

