-- ==== Sys2Proof/Laws/Ops.lean ====
section
/-! SUPPORT. What each shared operation can do, said once: the sequencer's `recompute`, `trigger` and
`expire`, the condition, the host's stream. -/

namespace Sys2Proof.Machine

/-! ## The sequencer (40_strobe_sequencer.md R142, R151, R153) -/

theorem gateColumn_toNat (gc gb ga : Bool) :
    (gateColumn gc gb ga).toNat = 4 * gc.toNat + 2 * gb.toNat + ga.toNat := by
  revert gc gb ga; decide

/-- `recompute` writes the column alone. -/
theorem recompute_eq (u : Strobe) :
    u.recompute = { u with
      column := if u.g2a = true ∨ u.g2b = true then 0
        else if u.g1 = true then gateColumn u.gc u.gb u.ga else u.column } := by
  obtain ⟨ga, gb, gc, g1, g2a, g2b, column, active, deadline⟩ := u
  cases g2a <;> cases g2b <;> cases g1 <;> rfl

section recompute

variable (u : Strobe)

@[simp] theorem recompute_ga : u.recompute.ga = u.ga := by rw [recompute_eq]
@[simp] theorem recompute_gb : u.recompute.gb = u.gb := by rw [recompute_eq]
@[simp] theorem recompute_gc : u.recompute.gc = u.gc := by rw [recompute_eq]
@[simp] theorem recompute_g1 : u.recompute.g1 = u.g1 := by rw [recompute_eq]
@[simp] theorem recompute_g2a : u.recompute.g2a = u.g2a := by rw [recompute_eq]
@[simp] theorem recompute_g2b : u.recompute.g2b = u.g2b := by rw [recompute_eq]
@[simp] theorem recompute_strobeActive : u.recompute.strobeActive = u.strobeActive := by
  rw [recompute_eq]
@[simp] theorem recompute_ic24Deadline : u.recompute.ic24Deadline = u.ic24Deadline := by
  rw [recompute_eq]

theorem recompute_column_of_inhibit (h : u.g2a = true ∨ u.g2b = true) : u.recompute.column = 0 := by
  rw [recompute_eq]; simp [h]

theorem recompute_column_of_enabled (h1 : u.g1 = true) (ha : u.g2a = false) (hb : u.g2b = false) :
    u.recompute.column = gateColumn u.gc u.gb u.ga := by
  rw [recompute_eq]; simp [h1, ha, hb]

theorem recompute_column_of_hold (h1 : u.g1 = false) (ha : u.g2a = false) (hb : u.g2b = false) :
    u.recompute.column = u.column := by
  rw [recompute_eq]; simp [h1, ha, hb]

/-- `recompute` twice is `recompute` once (40_strobe_sequencer.md R142). -/
theorem recompute_idempotent : u.recompute.recompute = u.recompute := by
  rw [recompute_eq u.recompute, recompute_eq u]
  cases u.g2a <;> cases u.g2b <;> cases u.g1 <;> simp

end recompute

section trigger

variable (cfg : Cfg) (now : Nat) (u : Strobe)

@[simp] theorem trigger_ga : (u.trigger cfg now).ga = u.ga := rfl
@[simp] theorem trigger_gb : (u.trigger cfg now).gb = u.gb := rfl
@[simp] theorem trigger_gc : (u.trigger cfg now).gc = u.gc := rfl
@[simp] theorem trigger_g1 : (u.trigger cfg now).g1 = u.g1 := rfl
@[simp] theorem trigger_g2a :
    (u.trigger cfg now).g2a = if cfg.ic24CouplesG2A then false else u.g2a := rfl
@[simp] theorem trigger_g2b : (u.trigger cfg now).g2b = u.g2b := rfl
@[simp] theorem trigger_column : (u.trigger cfg now).column = u.column := rfl
@[simp] theorem trigger_strobeActive : (u.trigger cfg now).strobeActive = true := rfl
@[simp] theorem trigger_ic24Deadline :
    (u.trigger cfg now).ic24Deadline = some (now + cfg.tIc24) := rfl

@[simp] theorem expire_ga : (u.expire cfg).ga = u.ga := by simp [Strobe.expire]
@[simp] theorem expire_gb : (u.expire cfg).gb = u.gb := by simp [Strobe.expire]
@[simp] theorem expire_gc : (u.expire cfg).gc = u.gc := by simp [Strobe.expire]
@[simp] theorem expire_g1 : (u.expire cfg).g1 = u.g1 := by simp [Strobe.expire]
@[simp] theorem expire_g2a :
    (u.expire cfg).g2a = if cfg.ic24CouplesG2A then true else u.g2a := by simp [Strobe.expire]
@[simp] theorem expire_g2b : (u.expire cfg).g2b = u.g2b := by simp [Strobe.expire]
@[simp] theorem expire_strobeActive : (u.expire cfg).strobeActive = false := by
  simp [Strobe.expire]
@[simp] theorem expire_ic24Deadline : (u.expire cfg).ic24Deadline = none := by
  simp [Strobe.expire]

end trigger

/-- When an expiry is due: a deadline is pending that is not ahead (60_exceptions.md R287). -/
theorem expiryDue_iff (s : State) :
    expiryDue s = true ↔ ∃ d, s.strobe.ic24Deadline = some d ∧ d ≤ s.now := by
  unfold expiryDue
  cases h : s.strobe.ic24Deadline <;> simp

/-! ## The condition (44_characteriser_barcrest.md R233) -/

theorem raiseCharacteriserFault_of_logged (s : State) (h : s.chr.chrFaultLogged = true) :
    raiseCharacteriserFault s = s := by
  simp [raiseCharacteriserFault, h]

theorem raiseCharacteriserFault_of_unlogged (s : State) (h : s.chr.chrFaultLogged = false) :
    raiseCharacteriserFault s =
      { s with
        out := s.out ++ [.log .characteriserFault]
        chr := { s.chr with chrFaultLogged := true } } := by
  simp [raiseCharacteriserFault, h, State.emit]

/-- Whichever way it goes, only the latch and the trace can change, and the latch ends set. -/
theorem raiseCharacteriserFault_spec (s : State) :
    ∃ es, raiseCharacteriserFault s =
      { s with out := s.out ++ es, chr := { s.chr with chrFaultLogged := true } } := by
  cases h : s.chr.chrFaultLogged with
  | false => exact ⟨_, raiseCharacteriserFault_of_unlogged s h⟩
  | true =>
    refine ⟨[], ?_⟩
    rw [raiseCharacteriserFault_of_logged s h, List.append_nil, ← h]

/-! ## The host's stream (log 1, 2) -/

/-- The next word is the oldest one issued, and taking it changes nothing else. -/
theorem takeOperation_eq_some (s t : State) (w : OpWord) :
    takeOperation s = some (w, t) ↔ s.stream = w :: t.stream ∧ t = { s with stream := t.stream } := by
  unfold takeOperation
  cases h : s.stream with
  | nil => simp
  | cons x rest =>
    constructor
    · intro e
      injection e with e
      injection e with e1 e2
      subst e1 e2
      exact ⟨rfl, rfl⟩
    · rintro ⟨e, ht⟩
      injection e with e1 e2
      subst e1
      exact (congrArg (fun x' => some (x, x')) ht).symm ▸ by rw [e2]

theorem takeOperation_eq_none (s : State) : takeOperation s = none ↔ s.stream = [] := by
  unfold takeOperation
  cases s.stream <;> simp

/-- A placed host word is the next one taken, and no expiry goes before it. -/
theorem placeOperation_of_host (s : State) (w : OpWord) (h : w ≠ encode .ic24exp) :
    expiryDue (placeOperation s w) = false ∧
      ∃ t, takeOperation (placeOperation s w) = some (w, t) := by
  unfold placeOperation
  rw [if_neg h]
  constructor
  · cases hd : expiryDue s with
    | false => simpa [expiryDue] using hd
    | true => simp [expiryDue]
  · exact ⟨_, rfl⟩

/-- The placed word of IC24EXP makes IC24's turn come. -/
theorem placeOperation_of_expiry (s : State) :
    expiryDue (placeOperation s (encode .ic24exp)) = true := by
  simp [placeOperation, expiryDue]

end Sys2Proof.Machine
end

