-- ==== Sys2Proof/Laws/PerInstr.lean ====
section
/-! SUPPORT. The per-instruction family: every operation's word matches its own row of the operation
map (30_encoding.md R102: "a word `W` encodes the operation of a row when `W & mask = match`"). -/

namespace Sys2Proof

/-- A mask acts on the four fields apart. -/
theorem packWord_and (a b : BitVec 4) (c d : Byte) (a' b' : BitVec 4) (c' d' : Byte) :
    packWord a b c d &&& packWord a' b' c' d' =
      packWord (a &&& a') (b &&& b') (c &&& c') (d &&& d') := by
  unfold packWord
  rw [BitVec.and_append, BitVec.and_append, BitVec.and_append]

/-- A level byte has no bit above bit 0. -/
theorem levelByte_and_FE (level : Bool) : levelByte level &&& 0xFE = 0 := by
  revert level; decide

namespace Laws.OperationMapRow

/-- The word of the operation, under its row's mask, is its row's match. -/
def Statement (i : Instr) : Prop := encode i &&& rowMask i = rowMatch i

theorem setgateA (level : Bool) : Statement (.setgateA level) := by
  show packWord 1 0 0 (levelByte level) &&& packWord 15 15 0xFF 0xFE = _
  rw [packWord_and, levelByte_and_FE]
  rfl

theorem setgateB (level : Bool) : Statement (.setgateB level) := by
  show packWord 1 1 0 (levelByte level) &&& packWord 15 15 0xFF 0xFE = _
  rw [packWord_and, levelByte_and_FE]
  rfl

theorem setgateC (level : Bool) : Statement (.setgateC level) := by
  show packWord 1 2 0 (levelByte level) &&& packWord 15 15 0xFF 0xFE = _
  rw [packWord_and, levelByte_and_FE]
  rfl

theorem setinhG1 (level : Bool) : Statement (.setinhG1 level) := by
  show packWord 2 0 0 (levelByte level) &&& packWord 15 15 0xFF 0xFE = _
  rw [packWord_and, levelByte_and_FE]
  rfl

theorem setinhG2A (level : Bool) : Statement (.setinhG2A level) := by
  show packWord 2 1 0 (levelByte level) &&& packWord 15 15 0xFF 0xFE = _
  rw [packWord_and, levelByte_and_FE]
  rfl

theorem setinhG2B (level : Bool) : Statement (.setinhG2B level) := by
  show packWord 2 2 0 (levelByte level) &&& packWord 15 15 0xFF 0xFE = _
  rw [packWord_and, levelByte_and_FE]
  rfl

theorem lampa (data : Byte) : Statement (.lampa data) := by
  show packWord 3 0 0 data &&& packWord 15 15 0xFF 0#8 = _
  rw [packWord_and, BitVec.and_zero]
  rfl

theorem lampb (data : Byte) : Statement (.lampb data) := by
  show packWord 3 1 0 data &&& packWord 15 15 0xFF 0#8 = _
  rw [packWord_and, BitVec.and_zero]
  rfl

theorem lampx (data : Byte) : Statement (.lampx data) := by
  show packWord 3 2 0 data &&& packWord 15 15 0xFF 0#8 = _
  rw [packWord_and, BitVec.and_zero]
  rfl

theorem ledw (data : Byte) : Statement (.ledw data) := by
  show packWord 4 0 0 data &&& packWord 15 15 0xFF 0#8 = _
  rw [packWord_and, BitVec.and_zero]
  rfl

theorem alphaclk (level : Bool) : Statement (.alphaclk level) := by
  show packWord 4 1 0 (levelByte level) &&& packWord 15 15 0xFF 0xFE = _
  rw [packWord_and, levelByte_and_FE]
  rfl

theorem alphadat (level : Bool) : Statement (.alphadat level) := by
  show packWord 4 2 0 (levelByte level) &&& packWord 15 15 0xFF 0xFE = _
  rw [packWord_and, levelByte_and_FE]
  rfl

theorem inread : Statement .inread := by
  show encode .inread &&& rowMask .inread = rowMatch .inread
  rfl

theorem aux1r : Statement .aux1r := by
  show encode .aux1r &&& rowMask .aux1r = rowMatch .aux1r
  rfl

theorem aux2r : Statement .aux2r := by
  show encode .aux2r &&& rowMask .aux2r = rowMatch .aux2r
  rfl

theorem chrw (offset call : Byte) : Statement (.chrw offset call) := by
  show packWord 6 0 offset call &&& packWord 15 15 0#8 0#8 = _
  rw [packWord_and, BitVec.and_zero, BitVec.and_zero]
  rfl

theorem chrr (offset : Byte) : Statement (.chrr offset) := by
  show packWord 6 1 offset 0 &&& packWord 15 15 0#8 0xFF = _
  rw [packWord_and, BitVec.and_zero]
  rfl

theorem meterw (data : Byte) : Statement (.meterw data) := by
  show packWord 7 0 0 data &&& packWord 15 15 0xFF 0#8 = _
  rw [packWord_and, BitVec.and_zero]
  rfl

theorem triacw (data : Byte) : Statement (.triacw data) := by
  show packWord 7 1 0 data &&& packWord 15 15 0xFF 0#8 = _
  rw [packWord_and, BitVec.and_zero]
  rfl

theorem tick : Statement .tick := by
  show encode .tick &&& rowMask .tick = rowMatch .tick
  rfl

theorem reset : Statement .reset := by
  show encode .reset &&& rowMask .reset = rowMatch .reset
  rfl

theorem wait (n : BitVec 16) : Statement (.wait n) := by
  show packWord 14 1 (n.extractLsb' 8 8) (n.extractLsb' 0 8) &&& packWord 15 15 0#8 0#8 = _
  rw [packWord_and, BitVec.and_zero, BitVec.and_zero]
  rfl

theorem ic24exp : Statement .ic24exp := by
  show encode .ic24exp &&& rowMask .ic24exp = rowMatch .ic24exp
  rfl

end Laws.OperationMapRow

end Sys2Proof
end

