-- ==== Sys2Proof/Tests/Slice0.lean ====
section
/-! SUPPORT. The model's own tests. Expected values are the spec's: 95_test_vectors.md and the worked
encodings of 30_encoding.md R120, not the model's answers. The last part gives, for each statement with
hypotheses, a concrete case that meets them. -/

namespace Sys2Proof.Tests

open Sys2Proof.Machine Sys2Proof.Claims

/-! ## Helpers -/

/-- The next state of an outcome. -/
def next? (o : Host.Outcome State Fault Refusal) : Option State :=
  match o with
  | .next s => some s
  | _ => none

/-- The refusal of an outcome. -/
def refusal? (o : Host.Outcome State Fault Refusal) : Option Refusal :=
  match o with
  | .refused r => some r
  | _ => none

/-- The error of a load. -/
def loadError? (r : RawCfg) : Option Fault :=
  match State.load r with
  | .error f => some f
  | .ok _ => none

/-- A reset state under another configuration. -/
def under (change : Cfg → Cfg) : State := State.fresh (change Cfg.standard)

/-- `SETCOL c` from a reset state, pulse apart: the gates and the column. -/
def atColumn (c : BitVec 3) (s : State) : State :=
  { s with
    strobe := { s.strobe with
      ga := c.getLsbD 0, gb := c.getLsbD 1, gc := c.getLsbD 2, column := c } }

/-- A pulse that began at 0. -/
def pulsing (s : State) : State :=
  { s with strobe := { s.strobe with strobeActive := true, ic24Deadline := some 9900 } }

/-- A state whose meter-drive latch holds `d`. -/
def withMeter (d : Byte) (s : State) : State := { s with reel := { s.reel with mmtrData := d } }

/-- A state at a Barcrest position. -/
def atRow (c : BitVec 6) (s : State) : State := { s with chr := { s.chr with currentColumn := c } }

/-- A running BwB unit with this counter, and 0xC2 as its last byte. -/
def counted (c : Fin 36) (s : State) : State :=
  { s with chr := { s.chr with chrState := .running, chrCounter := c, chrValue := 0xC2 } }

/-- The table of Program 3 (95_test_vectors.md). -/
def exampleRows : List ChrRow :=
  [⟨0x00, 0x00⟩, ⟨0x18, 0x0C⟩, ⟨0x30, 0x2A⟩, ⟨0x5C, 0x51⟩, ⟨0x18, 0x93⟩, ⟨0x5C, 0xE7⟩]
    ++ List.replicate 58 ⟨0xFF, 0x00⟩
    ++ (List.range 8).map fun k => ⟨0x00, 0xB0 + BitVec.ofNat 8 k⟩

/-- The same as a table. -/
def exampleTable : Vector ChrRow 72 := ⟨exampleRows.toArray, by decide⟩

/-- The tables of 95_test_vectors.md 1.8. -/
def exampleBwb : BwbTables :=
  { commonCall := ⟨#[0x00, 0x04, 0x0C, 0x1C], rfl⟩
    commonResp := ⟨#[0xC0, 0xC1, 0xC2, 0xC3, 0xC4], rfl⟩
    gameResp := ⟨#[0xE0, 0xE1, 0xE2, 0xE3, 0xE4], rfl⟩ }

def barcrestState : State := under fun c => { c with chr := .barcrest exampleTable }
def bwbState : State := under fun c => { c with chr := .bwb exampleBwb }
def bwbAdvancing : State :=
  under fun c => { c with chr := .bwb exampleBwb, bwbCheckpointAdvances := true }
def smallCardState : State := under fun c => { c with lampExtender := .smallCard }
def cardA : State := under fun c => { c with lampExtender := .largeCardA }
def cardB : State := under fun c => { c with lampExtender := .largeCardB }
def directLeds : State := under fun c => { c with ledWiring := .direct }
def ledCardState : State := under fun c => { c with ledExtender := .cardA }
def reelMode (m : ReelMultiplexMode) : State := under fun c => { c with reelMode := m }
def coupled : State := under fun c => { c with ic24CouplesG2A := true }
def lateExpiry : State := { pulsing State.reset with now := 9900 }

/-- The default configuration as a host supplies it. -/
def rawStandard : RawCfg :=
  { reelCount := 4, reelMode := some .standardReel, lampExtender := some .none,
    ledExtender := some .none, chr := .none, tIc24 := 9900, ic24CouplesG2A := false,
    ledWiring := some .reversed, smallCardCommitPhase := 1, reel5Index := 4,
    auxCompose := [], bwbCheckpointAdvances := false }

/-! ## Well-formedness: an ill-formed term for each check -/

theorem test_wellFormed_refuses_ic24exp : Instr.wellFormed .ic24exp = false := by decide
theorem test_wellFormed_takes_wait : Instr.wellFormed (.wait 65535) = true := by decide
theorem test_program_refuses_ic24exp : programWellFormed [.tick, .ic24exp] = false := by decide
theorem test_line_refuses_unknown_mnemonic :
    AsmLine.wellFormed ⟨"IC24EXP", []⟩ = false ∧ AsmLine.wellFormed ⟨"LAMPR", [0]⟩ = false := by
  decide
theorem test_line_refuses_operand_count :
    AsmLine.wellFormed ⟨"CHRW", [2]⟩ = false ∧ AsmLine.wellFormed ⟨"TICK", [0]⟩ = false := by decide
theorem test_line_refuses_operand_range :
    AsmLine.wellFormed ⟨"SETGATE.A", [2]⟩ = false ∧ AsmLine.wellFormed ⟨"LAMPA", [256]⟩ = false ∧
      AsmLine.wellFormed ⟨"WAIT", [65536]⟩ = false := by decide
theorem test_line_takes_bounds :
    AsmLine.wellFormed ⟨"CHRW", [255, 255]⟩ = true ∧ AsmLine.wellFormed ⟨"WAIT", [65535]⟩ = true := by
  decide

/-! ## Load: each check of 70_reset_and_hazards.md R311 refuses, and the order between two -/

theorem test_load_standard : State.load rawStandard = .ok State.reset := rfl
theorem test_load_refuses_lampExtender :
    loadError? { rawStandard with lampExtender := none, ledExtender := none } =
      some (.configurationError .lampExtenderKind) := by decide
theorem test_load_refuses_ledExtender :
    loadError? { rawStandard with ledExtender := none, reelMode := none } =
      some (.configurationError .ledExtenderKind) := by decide
theorem test_load_refuses_reelMode :
    loadError? { rawStandard with reelMode := none, chr := .barcrest [] } =
      some (.configurationError .reelMultiplexMode) := by decide
theorem test_load_refuses_71_rows :
    loadError? { rawStandard with chr := .barcrest (exampleRows.take 71), tIc24 := 0 } =
      some (.configurationError .chr) := by decide
theorem test_load_refuses_missing_bwb_table :
    loadError? { rawStandard with chr := .bwb (some [0, 4, 12, 28]) none (some [0, 0, 0, 0, 0]) } =
      some (.configurationError .chr) := by decide
theorem test_load_refuses_zero_pulse :
    loadError? { rawStandard with tIc24 := 0 } = some (.configurationError .tIc24) := by decide
theorem test_load_refuses_wiring :
    loadError? { rawStandard with ledWiring := none } = some (.configurationError .ledWiring) := by
  decide
theorem test_load_refuses_phase :
    loadError? { rawStandard with smallCardCommitPhase := 3 } =
      some (.configurationError .smallCardCommitPhase) := by decide
theorem test_load_refuses_reel_index :
    loadError? { rawStandard with reel5Index := -1 } = some (.configurationError .reel5Index) := by
  decide

/-! ## Decoding: words written out from 30_encoding.md R100 to R102, R120; 95_test_vectors.md 2.1 -/

theorem test_decode_setgateA : decode 0x100001 = .ok (.setgateA true) := by decide
theorem test_decode_setgateB : decode 0x110001 = .ok (.setgateB true) := by decide
theorem test_decode_setgateC : decode 0x120000 = .ok (.setgateC false) := by decide
theorem test_decode_setinhG1 : decode 0x200001 = .ok (.setinhG1 true) := by decide
theorem test_decode_setinhG2A : decode 0x210001 = .ok (.setinhG2A true) := by decide
theorem test_decode_setinhG2B : decode 0x220000 = .ok (.setinhG2B false) := by decide
theorem test_decode_lampa : decode 0x3000FF = .ok (.lampa 0xFF) := by decide
theorem test_decode_lampb : decode 0x3100A5 = .ok (.lampb 0xA5) := by decide
theorem test_decode_lampx : decode 0x320085 = .ok (.lampx 0x85) := by decide
theorem test_decode_ledw : decode 0x4000FF = .ok (.ledw 0xFF) := by decide
theorem test_decode_alphaclk : decode 0x410001 = .ok (.alphaclk true) := by decide
theorem test_decode_alphadat : decode 0x420001 = .ok (.alphadat true) := by decide
theorem test_decode_inread : decode 0x500000 = .ok .inread := by decide
theorem test_decode_aux1r : decode 0x510000 = .ok .aux1r := by decide
theorem test_decode_aux2r : decode 0x520000 = .ok .aux2r := by decide
theorem test_decode_chrw : decode 0x60407F = .ok (.chrw 0x40 0x7F) := by decide
theorem test_decode_chrr : decode 0x61FF00 = .ok (.chrr 0xFF) := by decide
theorem test_decode_meterw : decode 0x7000A1 = .ok (.meterw 0xA1) := by decide
theorem test_decode_triacw : decode 0x7100FF = .ok (.triacw 0xFF) := by decide
theorem test_decode_tick : decode 0x720000 = .ok .tick := by decide
theorem test_decode_reset : decode 0xE00000 = .ok .reset := by decide
theorem test_decode_wait : decode 0xE126AC = .ok (.wait 9900) := by decide
theorem test_decode_ic24exp : decode 0xF00000 = .ok .ic24exp := by decide

theorem test_decode_reserved_op :
    decode 0x000000 = .error .reservedOp ∧ decode 0x800000 = .error .reservedOp ∧
      decode 0xD12345 = .error .reservedOp := by decide
theorem test_decode_reserved_sel :
    decode 0x130000 = .error .reservedSel ∧ decode 0x330000 = .error .reservedSel ∧
      decode 0x620000 = .error .reservedSel ∧ decode 0xE20000 = .error .reservedSel ∧
      decode 0xFFFFFF = .error .reservedSel := by decide
theorem test_decode_reserved_bits :
    decode 0x100002 = .error .reservedBits ∧ decode 0x300100 = .error .reservedBits ∧
      decode 0x410003 = .error .reservedBits ∧ decode 0x500001 = .error .reservedBits ∧
      decode 0x610001 = .error .reservedBits ∧ decode 0x720001 = .error .reservedBits := by decide
theorem test_host_decoder_refuses_ic24exp : decodeHost 0xF00000 = .error .internalEvent := by decide
theorem test_decodeTableWord : decodeTableWord 24 0x600224 = some (.chrw 2 0x24) := by decide

/-! ## Assembler and pseudo-operations (30_encoding.md R120, R121) -/

theorem test_assemble_worked_encodings :
    (assemble ⟨"SETGATE.B", [1]⟩).map encode = some 0x110001 ∧
      (assemble ⟨"LAMPA", [0xFF]⟩).map encode = some 0x3000FF ∧
      (assemble ⟨"CHRW", [2, 0x24]⟩).map encode = some 0x600224 ∧
      (assemble ⟨"CHRR", [3]⟩).map encode = some 0x610300 ∧
      (assemble ⟨"WAIT", [9900]⟩).map encode = some 0xE126AC ∧
      (assemble ⟨"TICK", []⟩).map encode = some 0x720000 := by decide
theorem test_expand_setcol :
    (Pseudo.expand (.setcol 6)).map encode = [0x120001, 0x110001, 0x100000] := by decide
theorem test_expand_enable :
    (Pseudo.expand .enable).map encode = [0x210000, 0x220000, 0x200001] := by decide
theorem test_expand_lampwrite :
    (Pseudo.expand (.lampwrite 2 0xFF)).map encode = [0x120000, 0x110001, 0x100000, 0x3000FF] := by
  decide
theorem test_expand_waitms :
    Pseudo.expand (.waitms 10) = [.wait 10000] ∧
      Pseudo.expand (.waitms 66) = [.wait 65535, .wait 465] := by decide

/-! ## One step of each operation (95_test_vectors.md section 2) -/

/-- Block A of 2.2, the gate A row. -/
theorem test_setgateA_triggers :
    (next? (exec (.setgateA true) (atColumn 6 State.reset))).map (fun t =>
      (t.strobe.column, t.strobe.strobeActive, t.strobe.ic24Deadline)) =
      some (7, true, some 9900) := by decide
/-- Block D of 2.2: the edge releases G2A under the coupling. -/
theorem test_setgateA_coupled :
    (next? (exec (.setgateA true) { coupled with
      strobe := { coupled.strobe with g2a := true, gb := true } })).map (fun t =>
      (t.strobe.g2a, t.strobe.column)) = some (false, 3) := by decide
theorem test_setgateB :
    (next? (exec (.setgateB true) State.reset)).map (fun t =>
      (t.strobe.column, t.strobe.strobeActive)) = some (2, false) := by decide
theorem test_setgateC :
    (next? (exec (.setgateC true) (atColumn 2 State.reset))).map (fun t => t.strobe.column) =
      some 6 := by decide
/-- Block A of 2.2: the column is held, then loaded. -/
theorem test_setinhG1_loads :
    (next? (exec (.setinhG1 true) { atColumn 7 State.reset with
      strobe := { (atColumn 7 State.reset).strobe with g1 := false, column := 5 } })).map (fun t =>
      t.strobe.column) = some 7 := by decide
theorem test_setinhG2A_forces_zero :
    (next? (exec (.setinhG2A true) (atColumn 6 State.reset))).map (fun t => t.strobe.column) =
      some 0 := by decide
/-- Block B of 2.2: with G1 low the forced 0 stays. -/
theorem test_setinhG2B_release_holds :
    (next? (exec (.setinhG2B false) { State.reset with
      strobe := { State.reset.strobe with gb := true, gc := true, g1 := false, g2b := true } })).map
      (fun t => t.strobe.column) = some 0 := by decide
theorem test_lampa_writes :
    (next? (exec (.lampa 0x81) (atColumn 2 State.reset))).map (fun t =>
      (t.lamps.lamp, t.lamps.lampLatchA)) = some ([(16, true), (23, true)], 2) := by decide
theorem test_lampa_drops_at_reset_column :
    (next? (exec (.lampa 0xFF) State.reset)).map (fun t => t.lamps.lamp) = some [] := by decide
/-- Program 1, line 4. -/
theorem test_lampb_writes :
    (next? (exec (.lampb 0x80) (atColumn 1 State.reset))).map (fun t =>
      (t.lamps.lamp, t.lamps.lampLatchB, t.lamps.lampLatchA)) = some ([(79, true)], 1, 0) := by decide
/-- Program 7, line 2. -/
theorem test_lampx_small_card_commits :
    (next? (exec (.lampx 0x09) { smallCardState with
      lamps := { smallCardState.lamps with scCol := 1, scPhase := 1 } })).map (fun t =>
      (t.lamps.lamp, t.lamps.scPhase)) =
      some ([(137, true), (138, true), (139, true), (140, true)], 2) := by decide
/-- Program 2, line 2. -/
theorem test_lampx_large_card_b :
    (next? (exec (.lampx 0x83) (pulsing (atColumn 1 cardB)))).map (fun t =>
      (t.lamps.lamp, t.leds.led2, t.lamps.lastB7)) =
      some ([(136, true), (137, true)], [(1, 0x7C)], true) := by decide
theorem test_ledw_reversed :
    (next? (exec (.ledw 0x3F) (atColumn 2 State.reset))).map (fun t => t.leds.led) =
      some [(5, 0xC0)] := by decide
theorem test_ledw_under_card_refused :
    refusal? (exec (.ledw 0) ledCardState) = some .ledCardUndocumented := by decide
theorem test_alphaclk_sends :
    (next? (exec (.alphaclk true) { State.reset with
      leds := { State.reset.leds with alphaDat := true } })).map (fun t => t.out) =
      some [.alphaBit true] := by decide
theorem test_alphadat :
    (next? (exec (.alphadat true) State.reset)).map (fun t => (t.leds.alphaDat, t.out)) =
      some (true, []) := by decide
theorem test_inread :
    next? (exec .inread (atColumn 3 State.reset)) = some { atColumn 3 State.reset with
      inputReplies := [Config.inputPort 0 3], inputDraws := 1 } := rfl
/-- 2.8: under the default composition the byte itself. -/
theorem test_aux1r :
    next? (exec .aux1r State.reset) = some { State.reset with
      inputReplies := [Config.auxSource 0 .aux1], inputDraws := 1 } := rfl
theorem test_aux2r :
    next? (exec .aux2r State.reset) = some { State.reset with
      inputReplies := [Config.auxSource 0 .aux2], inputDraws := 1 } := rfl
/-- 2.8: AUX1 = 0xA1 under the default, and under a composition the host supplies for one pocket. -/
theorem test_composeAux :
    composeAux [] .aux1 0xA1 5 = 0xA1 ∧
      composeAux [⟨.aux1, 0xA1, 5, 0x05⟩] .aux1 0xA1 5 = 0x05 ∧
      composeAux [⟨.aux1, 0xA1, 5, 0x05⟩] .aux2 0xA1 5 = 0xA1 ∧
      composeAux [⟨.aux1, 0xA1, 5, 0x05⟩] .aux1 0xA1 6 = 0xA1 := by decide
/-- P4 of 1.4: forward only. -/
theorem test_chrw_scans_forward :
    (next? (exec (.chrw 0 0x5C) (atRow 4 barcrestState))).map (fun t => t.chr.currentColumn) =
      some 5 := by decide
/-- 1.8, row 2. -/
theorem test_chrw_bwb :
    (next? (exec (.chrw 0 0x04) { bwbState with
      chr := { bwbState.chr with chrState := .running, initCol := 1, bwbReturn := 1 } })).map (fun t =>
      (t.chr.initCol, t.chr.bwbReturn, t.chr.chrValue)) = some (0, 2, 0xC1) := by decide
/-- 1.8, row 10. -/
theorem test_chrr_checkpoint :
    (next? (exec (.chrr 0) (counted 6 bwbState))).map (fun t =>
      (t.chrReplies, t.chr.chrCounter)) = some ([0xE0], 6) := by decide
/-- 2.10. -/
theorem test_chrr_fallback_logs :
    (next? (exec (.chrr 0) State.reset)).map (fun t => (t.out, t.chr.chrFaultLogged)) =
      some ([.log .characteriserFault], true) := by decide
theorem test_meterw :
    (next? (exec (.meterw 0xA1) State.reset)).map (fun t => (t.reel.mmtrData, t.out)) =
      some (0xA1, []) := by decide
theorem test_triacw :
    (next? (exec (.triacw 0xFF) State.reset)).map (fun t => (t.reel.triacData, t.out)) =
      some (0xFF, []) := by decide
/-- Scenario A with 1.7's figures: nibble 13, no meter. -/
theorem test_tick_five_reel :
    (next? (exec .tick (withMeter 0xA1 (reelMode .fiveReel8To5)))).map (fun t => t.out.take 3) =
      some [.mainsLine true, .stepperUpdate 4 13, .meterPulse 0 false] := by decide
theorem test_tick_seven_reel_refused :
    refusal? (exec .tick (reelMode .sevenReel)) = some .reelModeUndocumented := by decide
theorem test_reset_cancels_pulse :
    (next? (exec .reset { pulsing (atColumn 1 State.reset) with now := 5 })).map (fun t =>
      (t.strobe, t.now)) = some (Strobe.atReset, 5) := by decide
theorem test_wait_fires_at_deadline :
    (next? (exec (.wait 9900) (pulsing State.reset))).map (fun t =>
      (t.strobe.strobeActive, t.now)) = some (false, 9900) := by decide
theorem test_wait_before_deadline :
    (next? (exec (.wait 9899) (pulsing State.reset))).map (fun t =>
      (t.strobe.ic24Deadline, t.now)) = some (some 9900, 9899) := by decide
theorem test_ic24exp :
    (next? (exec .ic24exp lateExpiry)).map (fun t =>
      (t.strobe.strobeActive, t.strobe.ic24Deadline)) = some (false, none) := by decide
theorem test_step_refuses_reserved :
    refusal? (step (State.reset.withFetchWord 24 0x000000)) =
      some (.invalidWord .reservedOp) := by decide
theorem test_step_runs_placed_word :
    (next? (step (State.reset.withFetchWord 24 0x110001))).map (fun t => t.strobe.column) =
      some 2 := by decide

/-! ## Witnesses: for each statement with hypotheses, cases that meet them -/

theorem witness_SetgateBAndCLatchAndRecompute : (atColumn 5 State.reset).ColumnSound :=
  ⟨by decide, by decide⟩

theorem witness_ExpiryEndsPulse_due : expiryIsDue lateExpiry := ⟨9900, rfl, by decide⟩

theorem not_due_of_no_deadline (s : State) (h : s.strobe.ic24Deadline = none) :
    ¬ expiryIsDue s := by
  rintro ⟨d, hd, -⟩
  rw [h] at hd
  cases hd

/-- One microsecond before the deadline. -/
theorem witness_ExpiryEndsPulse_ahead : ¬ expiryIsDue { pulsing State.reset with now := 9899 } := by
  rintro ⟨d, hd, h⟩
  obtain rfl : 9900 = d := Option.some.inj hd
  exact absurd h (by decide)

theorem witness_InhibitDominance :
    (∀ i ∈ [Instr.setgateA true, .setinhG1 false, .setgateC true], isGateOrG1Write i = true) ∧
      State.reset.cfg.ic24CouplesG2A = false := by decide

theorem witness_ColumnFollowsGates :
    [Instr.setgateB true, .setgateA true] ≠ [] ∧
      (∀ i ∈ [Instr.setgateB true, .setgateA true], isGateWrite i = true) ∧
      State.reset.strobe.g1 = true ∧ State.reset.strobe.g2a = false ∧
      State.reset.strobe.g2b = false := by decide

/-- The last wait inside the pulse and the first that ends it. -/
theorem witness_RetriggerReplacesDeadline :
    (pulsing State.reset).strobe.ga = false ∧
      (9899 : BitVec 16).toNat < (pulsing State.reset).cfg.tIc24 ∧
      (pulsing State.reset).cfg.tIc24 ≤ (9900 : BitVec 16).toNat := by decide

theorem witness_GOneHoldDefersGates :
    (∀ i ∈ [Instr.setgateA true, .setgateB true], isGateWrite i = true) ∧
      ({ State.reset.strobe with g1 := false } : Strobe).g1 = false ∧
      State.reset.strobe.g2a = false ∧ State.reset.strobe.g2b = false := by decide

/-- The latched column, the last column, and the boundary cells of its groups. -/
theorem witness_BaselineLampWrite :
    State.reset.strobe.column = State.reset.lamps.lampLatchA ∧
      State.reset.strobe.column = State.reset.lamps.lampLatchB ∧
      (atColumn 7 State.reset).strobe.column ≠ (atColumn 7 State.reset).lamps.lampLatchA ∧
      (atColumn 7 State.reset).strobe.column ≠ (atColumn 7 State.reset).lamps.lampLatchB ∧
      inGroup (8 * (7 : BitVec 3).toNat) 8 56 ∧ inGroup (8 * (7 : BitVec 3).toNat) 8 63 ∧
      ¬ inGroup (8 * (7 : BitVec 3).toNat) 8 64 ∧
      inGroup (64 + 8 * (7 : BitVec 3).toNat) 8 120 ∧
      inGroup (64 + 8 * (7 : BitVec 3).toNat) 8 127 ∧
      ¬ inGroup (64 + 8 * (7 : BitVec 3).toNat) 8 119 := by
  simp only [inGroup]
  decide

/-- A scan away and back between the two writes, on each port. -/
theorem witness_RepeatedColumnWriteDropped :
    (∀ i ∈ [Instr.setgateC true, .setgateC false, .lampb 0], i ≠ .reset ∧ ∀ d, i ≠ .lampa d) ∧
      (∃ t, execAll [.lampa 0xFF, .setgateC true, .setgateC false, .lampb 0]
        (atColumn 2 State.reset) = .next t ∧ t.strobe.column = 2) ∧
      (∀ i ∈ [Instr.setgateC true, .setgateC false, .lampa 0], i ≠ .reset ∧ ∀ d, i ≠ .lampb d) ∧
      ∃ t, execAll [.lampb 0xFF, .setgateC true, .setgateC false, .lampa 0]
        (atColumn 2 State.reset) = .next t ∧ t.strobe.column = 2 :=
  ⟨by simp, ⟨_, rfl, rfl⟩, by simp, ⟨_, rfl, rfl⟩⟩

theorem witness_BaselinePortsCommute :
    Memory.wf lampOff [(16, true), (23, true)] := by decide

theorem witness_LampxWithoutCardDoesNothing : State.reset.cfg.lampExtender = .none := by decide

/-- A write at the commit phase, and the write that changes the card column, which is not at it. -/
theorem witness_SmallCardWrite :
    smallCardState.cfg.lampExtender = .smallCard ∧
      (7 : BitVec 3).toNat = (0x07 : Byte).toNat % 8 ∧
      0 = (if (7 : BitVec 3) ≠ smallCardState.lamps.scCol then 0
        else smallCardState.lamps.scPhase.val) ∧
      (0 : Nat) ≠ smallCardState.cfg.smallCardCommitPhase.val ∧
      1 = (if (7 : BitVec 3) ≠ ({ smallCardState.lamps with scCol := 7, scPhase := 1 } : LampUnit).scCol
        then 0
        else ({ smallCardState.lamps with scCol := 7, scPhase := 1 } : LampUnit).scPhase.val) ∧
      1 = smallCardState.cfg.smallCardCommitPhase.val := by decide

theorem witness_LargeCardWrite :
    cardA.cfg.lampExtender = .largeCardA ∧
      (true = true ↔ writeIsLive (pulsing (atColumn 7 cardA)) 0x85) ∧
      (false = true ↔ writeIsLive (pulsing (atColumn 7 cardA)) 0x05) ∧
      (false = true ↔ writeIsLive (atColumn 7 cardA) 0x85) := by
  simp only [writeIsLive]
  decide

theorem witness_LargeCardBWritesLampsAndLed :
    cardB.cfg.lampExtender = .largeCardB ∧
      (true = true ↔ writeIsLive (pulsing (atColumn 7 cardB)) 0xFF) ∧
      (false = true ↔ writeIsLive (pulsing (atColumn 7 cardB)) 0x7F) := by
  simp only [writeIsLive]
  decide

/-- P6's case from bank 0, and a case from bank 1. -/
theorem witness_LargeCardBankLag :
    (cardA.cfg.lampExtender = .largeCardA ∨ cardA.cfg.lampExtender = .largeCardB ∨
        cardA.cfg.lampExtender = .largeCardC) ∧
      (pulsing (atColumn 3 cardA)).strobe.strobeActive = true ∧
      (0x85 : Byte).getLsbD 7 ≠ (pulsing (atColumn 3 cardA)).lamps.lastB7 ∧
      (0x03 : Byte).getLsbD 7 = (pulsing (atColumn 3 cardA)).lamps.lastB7 ∧
      (0x03 : Byte).getLsbD 7 ≠ ({ cardB.lamps with lastB7 := true } : LampUnit).lastB7 ∧
      (0x85 : Byte).getLsbD 7 = ({ cardB.lamps with lastB7 := true } : LampUnit).lastB7 := by decide

theorem witness_SmallCardCommitsOneInThree :
    smallCardState.cfg.lampExtender = .smallCard ∧
      (0xF9 : Byte).toNat % 8 ≠ smallCardState.lamps.scCol.toNat ∧
      (0x09 : Byte).toNat % 8 = (0xF9 : Byte).toNat % 8 := by decide

/-- Both wirings, at the columns 0 and 7. -/
theorem witness_LedwWritesOneDigit :
    State.reset.cfg.ledExtender = .none ∧ State.reset.cfg.ledWiring = .reversed ∧
      7 + State.reset.strobe.column.toNat = 7 ∧
      0 + (atColumn 7 State.reset).strobe.column.toNat = 7 ∧
      directLeds.cfg.ledExtender = .none ∧ directLeds.cfg.ledWiring = .direct ∧
      7 = (atColumn 7 directLeds).strobe.column.toNat := by decide

theorem witness_AlphaclkSendsOnRise :
    (State.reset.leds.alphaClk = false ∧ true = true) ∧
      ¬ (State.reset.leds.alphaClk = false ∧ false = true) := by decide

/-- The default composition, and one the host supplies. -/
theorem witness_InputReadsGiveBack :
    (∀ port byte pocket, composeAux State.reset.cfg.auxCompose port byte pocket = byte) ∧
      ∀ port byte pocket,
        composeAux (under fun c => { c with
          auxCompose := [⟨.aux2, 0xFF, 11, 0x00⟩] }).cfg.auxCompose port byte pocket =
        if port = .aux2 ∧ byte = 0xFF ∧ pocket = 11 then 0x00 else byte := by
  refine ⟨fun _ _ _ => rfl, ?_⟩
  intro port byte pocket
  by_cases h : port = .aux2 ∧ byte = 0xFF ∧ pocket = 11
  · obtain ⟨rfl, rfl, rfl⟩ := h
    rfl
  · simp only [if_neg h, composeAux, under, State.fresh, List.find?_cons, List.find?_nil]
    split
    · rename_i c hc
      split at hc
      · rename_i he
        simp only [Bool.and_eq_true, beq_iff_eq] at he
        exact absurd ⟨he.1.1.symm, he.1.2.symm, he.2.symm⟩ h
      · cases hc
    · rfl

/-- A read that changes the BwB counter, one that logs, and one that changes nothing of SCB's. -/
theorem witness_ReadsWithSideEffects :
    (∃ o, Instr.chrr 0 = .chrr o) ∧ bwbState.cfg.chr = .bwb exampleBwb ∧
      (next? (exec (.chrr 0) bwbState)).map (fun t => t.chr.chrCounter) = some 1 ∧
      State.reset.cfg.chr = .none ∧
      (next? (exec (.chrr 3) State.reset)).map (fun t => t.out) = some [.log .characteriserFault] ∧
      (next? (exec .aux1r State.reset)).map (fun t => t.chr) = some State.reset.chr :=
  ⟨⟨0, rfl⟩, rfl, by decide, rfl, by decide, by decide⟩

theorem witness_barcrest : barcrestState.cfg.chr = .barcrest exampleTable := rfl

/-- Row 3 holds the call from position 0; nothing holds it from position 6. -/
theorem witness_BarcrestScanTakesFirstMatch :
    (0x5C : Byte) ≠ 0 ∧ ((atRow 0 barcrestState).chr.currentColumn.toNat ≤ 3 ∧ 3 ≤ 63 ∧
      rowHasCall exampleTable 3 0x5C) ∧
      ∀ j, (atRow 6 barcrestState).chr.currentColumn.toNat ≤ j → j ≤ 63 →
        ¬ rowHasCall exampleTable j 0x5C := by
  have h : ∀ j : Fin 64, 6 ≤ j.val → exampleTable[j.val]?.map ChrRow.call ≠ some 0x5C := by decide
  exact ⟨by decide, ⟨by decide, by decide, rfl⟩, fun j h1 h2 => h ⟨j, by omega⟩ h1⟩

/-- The last column's square, a byte that is no square, and an offset beside 0 and 2. -/
theorem witness_BarcrestLampCallAndOtherOffsets :
    (7 : BitVec 3).toNat * (7 : BitVec 3).toNat = (0x31 : Byte).toNat ∧
      (∀ n : BitVec 3, n.toNat * n.toNat ≠ (0x05 : Byte).toNat) ∧
      (1 : Byte) ≠ 0 ∧ (1 : Byte) ≠ 2 := by decide

/-- The last main row, the last lamp row, and offsets beside 0 and 3. -/
theorem witness_BarcrestReads :
    exampleTable[(atRow 63 barcrestState).chr.currentColumn.toNat]? = some ⟨0xFF, 0x00⟩ ∧
      exampleTable[(7 : BitVec 3).toNat + 64]? = some ⟨0x00, 0xB7⟩ ∧
      (2 : Byte) ≠ 0 ∧ (2 : Byte) ≠ 3 := by decide

theorem witness_ScanNeverGoesBack :
    (∀ i ∈ [Instr.chrw 0 0x18, .chrr 0, .chrw 0 0x30], i ≠ .reset ∧ i ≠ .chrw 0 0) ∧
      ∃ t, execAll [.chrw 0 0x18, .chrr 0, .chrw 0 0x30] barcrestState = .next t :=
  ⟨by decide, _, rfl⟩

theorem witness_Fallback : State.reset.cfg.chr = .none := by decide

theorem witness_FaultLoggedOncePerReset :
    (∀ i ∈ [Instr.chrw 0 1, .chrr 0, .tick], i ≠ .reset) ∧
      ∃ t, execAll [.chrw 0 1, .chrr 0, .tick] State.reset = .next t :=
  ⟨by decide, _, rfl⟩

/-- A base access and another offset, an unmatched call, the first and the last common call, the last
index of the sequence and the first past it. -/
theorem witness_BwbWriteResult :
    bwbState.cfg.chr = .bwb exampleBwb ∧ (0xC0 : Byte).toNat % 64 = 0 ∧
      (0x3F : Byte).toNat % 64 ≠ 0 ∧ bwbState.chr.chrState = .uninit ∧
      (counted 0 bwbState).chr.chrState ≠ .uninit ∧
      (∀ j : Fin 4, exampleBwb.commonCall[j.val]? ≠ some 0x55) ∧
      exampleBwb.commonCall[0]? = some 0x00 ∧ exampleBwb.commonCall[3]? = some 0x1C ∧
      (∀ j : Nat, j < 3 → exampleBwb.commonCall[j]? ≠ some 0x1C) ∧
      exampleBwb.commonResp[4]? = some 0xC4 ∧ 4 < 5 :=
  ⟨rfl, by decide, by decide, rfl, by decide, by decide, rfl, rfl, by decide, rfl, by decide⟩

/-- The first and the last checkpoint under each switch, the counter before the ceiling, the ceiling. -/
theorem witness_BwbReadResult :
    bwbState.cfg.chr = .bwb exampleBwb ∧ (0x40 : Byte) ≠ 0 ∧
      (counted 6 bwbState).chr.chrCounter.val = 7 * 0 + 6 ∧ exampleBwb.gameResp[0]? = some 0xE0 ∧
      bwbState.cfg.bwbCheckpointAdvances = false ∧
      bwbAdvancing.cfg.bwbCheckpointAdvances = true ∧
      (counted 34 bwbAdvancing).chr.chrCounter.val = 7 * 4 + 6 ∧
      exampleBwb.gameResp[4]? = some 0xE4 ∧
      (35 : Fin 36).val = (counted 34 bwbAdvancing).chr.chrCounter.val + 1 ∧
      (counted 33 bwbState).chr.chrCounter.val % 7 ≠ 6 ∧
      (34 : Fin 36).val = (counted 33 bwbState).chr.chrCounter.val + 1 ∧
      (counted 35 bwbState).chr.chrCounter.val = 35 :=
  ⟨rfl, by decide, rfl, rfl, rfl, rfl, rfl, rfl, rfl, by decide, rfl, rfl⟩

theorem witness_BwbCounterStopsAtFirstCheckpoint :
    bwbState.cfg.bwbCheckpointAdvances = false ∧ (counted 6 bwbState).chr.chrCounter.val ≤ 6 ∧
      ∃ t, execAll [.chrr 0, .chrw 0 0x04, .chrr 0] (counted 6 bwbState) = .next t :=
  ⟨rfl, by decide, _, rfl⟩

theorem witness_BwbCheckpointsReachedWhenAdvancing :
    bwbAdvancing.cfg.chr = .bwb exampleBwb ∧ bwbAdvancing.cfg.bwbCheckpointAdvances = true ∧
      bwbAdvancing.chr.chrCounter = 0 ∧ 35 ≤ 35 := ⟨rfl, rfl, rfl, by decide⟩

theorem witness_Ticks :
    State.reset.cfg.reelMode = .standardReel ∧
      (reelMode .fiveReel8To5).cfg.reelMode = .fiveReel8To5 ∧
      (reelMode .flutterbox).cfg.reelMode = .flutterbox ∧
      (0x03 : Byte).toNat = (withMeter 0x83 (reelMode .flutterbox)).reel.mmtrData.toNat % 128 := by
  decide

/-- A next state, of an operation and of a step: TickLockstep, ClockAndTracesOnlyGrow, UnitOwnership,
ConfigurationImmutable. -/
theorem witness_next :
    (∃ t, exec .tick State.reset = .next t ∧ t.reel ≠ State.reset.reel) ∧
      (∃ t, exec (.wait 1) State.reset = .next t) ∧
      (∃ t, exec .inread State.reset = .next t ∧ Instr.inread ≠ .reset ∧
        ∀ n, Instr.inread ≠ .wait n) ∧
      (∃ t, step (State.reset.withFetchWord 24 0x720000) = .next t) ∧
      State.load rawStandard = .ok State.reset :=
  ⟨⟨_, rfl, by decide⟩, ⟨_, rfl⟩, ⟨_, rfl, by decide, by simp⟩, ⟨_, rfl⟩, rfl⟩

/-- Each field in turn as the first that fails, the last valid value of each number, and none. -/
theorem witness_LoadChecksConfiguration :
    firstBadField { rawStandard with lampExtender := none } = some .lampExtenderKind ∧
      firstBadField { rawStandard with chr := .barcrest (exampleRows.take 71) } = some .chr ∧
      firstBadField { rawStandard with tIc24 := 0 } = some .tIc24 ∧
      firstBadField { rawStandard with smallCardCommitPhase := 3 } = some .smallCardCommitPhase ∧
      firstBadField { rawStandard with reel5Index := -1 } = some .reel5Index ∧
      firstBadField { rawStandard with
        chr := .barcrest exampleRows, tIc24 := 1, smallCardCommitPhase := 2, reel5Index := 0 } =
          none := by decide

/-- No deadline, a deadline just ahead, and a deadline just reached. -/
theorem witness_WaitMovesTimePastExpiry :
    (∀ d, State.reset.strobe.ic24Deadline = some d → State.reset.now + (5 : BitVec 16).toNat < d) ∧
      (∀ d, (pulsing State.reset).strobe.ic24Deadline = some d →
        (pulsing State.reset).now + (9899 : BitVec 16).toNat < d) ∧
      ((pulsing State.reset).strobe.ic24Deadline = some 9900 ∧
        9900 ≤ (pulsing State.reset).now + (9900 : BitVec 16).toNat) := by
  refine ⟨by simp [State.reset, State.fresh, Strobe.atReset], ?_, rfl, by decide⟩
  intro d h
  obtain rfl : 9900 = d := Option.some.inj h
  decide

theorem witness_WaitsAddUp :
    (0xFFFE : BitVec 16).toNat + (1 : BitVec 16).toNat < 65536 := by decide

theorem witness_CharacteriserIndependentOfOtherUnits :
    isChrOp (.chrr 0) = true ∧ isStrobeLampLedInputOrMeterOp .tick = true ∧
      isStrobeLampLedInputOrMeterOp .inread = true ∧
      (∃ t, execAll [.chrr 0, .tick] State.reset = .next t) ∧
      ∃ t, execAll [.chrr 0, .inread] State.reset = .next t :=
  ⟨by decide, by decide, by decide, ⟨_, rfl⟩, ⟨_, rfl⟩⟩

theorem witness_EncodeOfDecode :
    decode 0x6002FF = .ok (.chrw 2 0xFF) ∧ decode 0xE1FFFF = .ok (.wait 65535) := by decide

theorem witness_DecodeFollowsOperationMap :
    0x3200FF &&& rowMask (.lampx 0) = rowMatch (.lampx 0) ∧
      decode 0x3200FF = .ok (.lampx 0xFF) := by decide

theorem witness_ExpiryIsNoHostOperation : expiryIsDue lateExpiry := ⟨9900, rfl, by decide⟩

theorem witness_StepRunsDecodedOperation :
    ¬ expiryIsDue State.reset ∧
      ({ State.reset with stream := [0x720000, 0] } : State).stream = 0x720000 :: [0] ∧
      decode 0x720000 = .ok .tick ∧ Instr.tick ≠ .ic24exp ∧
      decode 0x000000 = .error .reservedOp ∧
      ({ State.reset with stream := [0xF00000] } : State).stream = 0xF00000 :: [] ∧
      State.reset.stream = [] :=
  ⟨not_due_of_no_deadline _ rfl, rfl, by decide, by decide, by decide, rfl, rfl⟩

theorem witness_PlacedWordRunsNext :
    ¬ expiryIsDue State.reset ∧ Instr.chrw 2 0x24 ≠ .ic24exp :=
  ⟨not_due_of_no_deadline _ rfl, by decide⟩

/-- The refused forms, and operations that meet every premise of completion. -/
theorem witness_OnlyUndocumentedFormsRefused :
    ledCardState.cfg.ledExtender ≠ .none ∧ modeHasNoTable (reelMode .sevenReel).cfg.reelMode ∧
      State.reset.cfg.ledExtender = .none ∧ ¬ modeHasNoTable State.reset.cfg.reelMode ∧
      Instr.tick ≠ .ic24exp := by
  simp only [modeHasNoTable]
  decide

/-- A pulse runs on column 3 of a large card, lamps and LEDs are lit, and BwB is exhausted. -/
def busyState : State :=
  { counted 35 (pulsing (atColumn 3 (under fun c =>
      { c with lampExtender := .largeCardB, chr := .bwb exampleBwb }))) with
    lamps := { LampUnit.atReset with lamp := [(0, true), (254, true)] }
    leds := { LedUnit.atReset with led := [(7, 0xFF)], led2 := [(15, 0x01)] }
    chr := { (counted 35 bwbState).chr with chrState := .exhausted }
    stream := [0x720000] }

theorem witness_StepKeepsSoundness :
    busyState.Sound ∧ ∃ t, step busyState = .next t := by
  refine ⟨⟨?_, ⟨by decide, by decide⟩, ⟨by decide, by decide, ?_⟩, ⟨by decide, by decide⟩⟩, _, rfl⟩
  · refine ⟨by decide, by decide, by decide, ?_, by decide, by decide, by decide⟩
    intro p hp
    show lampCellUsed .largeCardB p.1
    have h : p = (0, true) ∨ p = (254, true) := by
      simpa [busyState] using hp
    rcases h with rfl | rfl <;> simp only [lampCellUsed] <;> decide
  · intro d h
    obtain rfl : 9900 = d := Option.some.inj h
    decide

theorem witness_ReachableStatesAreSound :
    ∃ t, Reachable t ∧ t.strobe.column = 2 :=
  ⟨_, .step _ _ (.issue _ 0x110001 (.load rawStandard State.reset rfl)) rfl, rfl⟩

end Sys2Proof.Tests
end

/-! # Scope (00_scope.md): words and steps, and the configuration

The statements of R3 and R7. First the layer they rest on: the decoder on packed words, the host's
decoder, the cases of a step, what each unit's operations can write, and the checks of load. -/

namespace Sys2Proof

/-! ## The decoder on packed words (30_encoding.md R100 to R102) -/

section packed

variable (op sel : BitVec 4) (off dat : Byte)

/-- Which byte or nibble a bit of a packed word comes from (30_encoding.md R100). -/
theorem getLsbD_packWord (i : Nat) :
    (packWord op sel off dat).getLsbD i =
      if i < 8 then dat.getLsbD i
      else if i < 16 then off.getLsbD (i - 8)
      else if i < 20 then sel.getLsbD (i - 16)
      else op.getLsbD (i - 20) := by
  simp only [packWord, BitVec.getLsbD_append]
  grind

@[simp] theorem opField_packWord : opField (packWord op sel off dat) = op.toNat := by
  refine congrArg BitVec.toNat (BitVec.eq_of_getLsbD_eq fun i hi => ?_)
  simp only [BitVec.getLsbD_extractLsb', getLsbD_packWord]
  grind

@[simp] theorem selField_packWord : selField (packWord op sel off dat) = sel.toNat := by
  refine congrArg BitVec.toNat (BitVec.eq_of_getLsbD_eq fun i hi => ?_)
  simp only [BitVec.getLsbD_extractLsb', getLsbD_packWord]
  grind

@[simp] theorem offField_packWord : offField (packWord op sel off dat) = off := by
  refine BitVec.eq_of_getLsbD_eq fun i hi => ?_
  simp only [offField, BitVec.getLsbD_extractLsb', getLsbD_packWord]
  grind

@[simp] theorem datField_packWord : datField (packWord op sel off dat) = dat := by
  refine BitVec.eq_of_getLsbD_eq fun i hi => ?_
  simp only [datField, BitVec.getLsbD_extractLsb', getLsbD_packWord]
  grind

/-- The count field is the two low bytes of the word (30_encoding.md R101). -/
@[simp] theorem countField_packWord : countField (packWord op sel off dat) = off ++ dat := by
  refine BitVec.eq_of_getLsbD_eq fun i hi => ?_
  simp only [countField, BitVec.getLsbD_append, BitVec.getLsbD_extractLsb', getLsbD_packWord]
  grind

/-! The operand rows give back the operand the word was packed with. -/

@[simp] theorem levelRow_packWord (build : Bool → Instr) (level : Bool) :
    levelRow (packWord op sel 0#8 (levelByte level)) build = .ok (build level) := by
  have hzero : (packWord op sel 0#8 (levelByte level)).extractLsb' 1 15 = 0 := by
    refine BitVec.eq_of_getLsbD_eq fun i hi => ?_
    simp only [BitVec.getLsbD_extractLsb', getLsbD_packWord, levelByte, BitVec.getLsbD_append]
    grind
  have hlevel : (packWord op sel 0#8 (levelByte level)).getLsbD 0 = level := by
    rw [getLsbD_packWord, if_pos (by decide)]
    cases level <;> rfl
  rw [levelRow, if_pos hzero, hlevel]

@[simp] theorem dataRow_packWord (build : Byte → Instr) :
    dataRow (packWord op sel 0#8 dat) build = .ok (build dat) := by
  simp [dataRow]

@[simp] theorem plainRow_packWord (i : Instr) : plainRow (packWord op sel 0#8 0#8) i = .ok i := by
  simp [plainRow]

@[simp] theorem offsetRow_packWord (build : Byte → Instr) :
    offsetRow (packWord op sel off 0#8) build = .ok (build off) := by
  simp [offsetRow]

end packed

/-- A count is its high byte beside its low byte (30_encoding.md R101). -/
theorem count_highByte_append_lowByte (n : BitVec 16) :
    n.extractLsb' 8 8 ++ n.extractLsb' 0 8 = n := by
  calc n.extractLsb' 8 8 ++ n.extractLsb' 0 8
      = n.extractLsb' 0 16 := BitVec.extractLsb'_append_extractLsb'_eq_extractLsb' rfl
    _ = n := BitVec.extractLsb'_eq_self

/-- The decoder reads every operation's word back: its row by `op` and `sel`, then its operand. -/
theorem decode_encode (i : Instr) : decode (encode i) = .ok i := by
  cases i with
  | wait n => simp [encode, decode, count_highByte_append_lowByte]
  | _ => simp [encode, decode]

theorem encode_injective {i j : Instr} (h : encode i = encode j) : i = j := by
  have hok : Except.ok (ε := DecodeError) i = .ok j := by
    rw [← decode_encode i, ← decode_encode j, h]
  exact Except.ok.inj hok

/-! ## The host's decoder (30_encoding.md R103) -/

@[simp] theorem wellFormed_eq_true_iff (i : Instr) : i.wellFormed = true ↔ i ≠ .ic24exp := by
  cases i <;> simp [Instr.wellFormed]

theorem decodeHost_of_ok {w : OpWord} {i : Instr} (h : decode w = .ok i) (hi : i ≠ .ic24exp) :
    decodeHost w = .ok i := by
  simp [decodeHost, h, hi]

theorem decodeHost_of_error {w : OpWord} {e : DecodeError} (h : decode w = .error e) :
    decodeHost w = .error e := by
  simp [decodeHost, h]

/-- IC24EXP has a word, but not for a host (30_encoding.md R103). -/
theorem decodeHost_encode_ic24exp : decodeHost (encode .ic24exp) = .error .internalEvent := by
  simp [decodeHost, decode_encode, Instr.wellFormed]

end Sys2Proof

namespace Sys2Proof.Machine

open Sys2Proof.Claims

/-! ## The cases of a step (00_scope.md R7; 60_exceptions.md R287) -/

/-- The model's test and the statements' own predicate agree. -/
theorem expiryDue_eq_true_iff (s : State) : expiryDue s = true ↔ expiryIsDue s := expiryDue_iff s

theorem expiryDue_eq_false_iff (s : State) : expiryDue s = false ↔ ¬ expiryIsDue s := by
  rw [← expiryDue_eq_true_iff, Bool.not_eq_true]

section step

variable {s : State}

theorem step_of_due (h : expiryIsDue s) : step s = exec .ic24exp s := by
  rw [step, if_pos ((expiryDue_eq_true_iff s).2 h)]

theorem step_of_no_word (h : ¬ expiryIsDue s) (hs : s.stream = []) : step s = .next s := by
  simp [step, (expiryDue_eq_false_iff s).2 h, (takeOperation_eq_none s).2 hs, idleStep]

variable {w : OpWord} {rest : List OpWord}

theorem takeOperation_of_cons (hs : s.stream = w :: rest) :
    takeOperation s = some (w, { s with stream := rest }) :=
  (takeOperation_eq_some _ _ _).2 ⟨hs, rfl⟩

theorem step_of_host_word {i : Instr} (h : ¬ expiryIsDue s) (hs : s.stream = w :: rest)
    (hw : decodeHost w = .ok i) : step s = exec i { s with stream := rest } := by
  simp [step, (expiryDue_eq_false_iff s).2 h, takeOperation_of_cons hs, hw]

theorem step_of_bad_word {e : DecodeError} (h : ¬ expiryIsDue s) (hs : s.stream = w :: rest)
    (hw : decodeHost w = .error e) : step s = .refused (.invalidWord e) := by
  simp [step, (expiryDue_eq_false_iff s).2 h, takeOperation_of_cons hs, hw]

/-- A step that answers a next state was IC24's, or held the state, or ran the host's next word. -/
theorem step_eq_next_cases {t : State} (h : step s = .next t) :
    exec .ic24exp s = .next t ∨ t = s ∨
      ∃ i rest, exec i { s with stream := rest } = .next t := by
  by_cases hdue : expiryIsDue s
  · exact .inl (step_of_due hdue ▸ h)
  · cases hs : s.stream with
    | nil =>
      rw [step_of_no_word hdue hs] at h
      exact .inr (.inl (Host.Outcome.next.inj h).symm)
    | cons w rest =>
      cases hw : decodeHost w with
      | error e => rw [step_of_bad_word hdue hs hw] at h; cases h
      | ok i => exact .inr (.inr ⟨i, rest, step_of_host_word hdue hs hw ▸ h⟩)

end step

/-! ## Issuing a word (log 1, 2) -/

theorem withFetchWord_toNat (s : State) (w : OpWord) :
    s.withFetchWord 24 w.toNat = placeOperation s w := by
  rw [State.withFetchWord, Nat.mod_eq_of_lt w.isLt, BitVec.ofNat_toNat, BitVec.setWidth_eq]

/-- With no expiry to settle, a placed host word goes in front of the stream and nothing else
changes. -/
theorem placeOperation_of_not_due {s : State} {w : OpWord} (h : ¬ expiryIsDue s)
    (hw : w ≠ encode .ic24exp) : placeOperation s w = { s with stream := w :: s.stream } := by
  simp [placeOperation, hw, (expiryDue_eq_false_iff s).2 h]

/-- IC24's step ends the pulse (40_strobe_sequencer.md R153). -/
theorem exec_ic24exp_of_due {s : State} (h : expiryDue s = true) :
    exec .ic24exp s = .next (ic24Expire s) := by
  rw [exec, execIc24exp, if_pos h]

/-! ## What each unit's operations can write

One lemma per operation with branches: whichever branch runs, only the fields named in it change. -/

section writes

variable (s : State) (data offset call : Byte)

theorem execLampa_writes : ∃ u, execLampa data s = .next { s with lamps := u } := by
  unfold execLampa
  split
  · exact ⟨_, rfl⟩
  · exact ⟨s.lamps, rfl⟩

theorem execLampb_writes : ∃ u, execLampb data s = .next { s with lamps := u } := by
  unfold execLampb
  split
  · exact ⟨_, rfl⟩
  · exact ⟨s.lamps, rfl⟩

theorem largeCardLampsAndLed_writes :
    ∃ u v, largeCardLampsAndLed data s = { s with lamps := u, leds := v } := by
  simp only [largeCardLampsAndLed]
  split
  · exact ⟨_, _, rfl⟩
  · exact ⟨_, s.leds, rfl⟩

theorem execLampx_writes : ∃ u v, execLampx data s = .next { s with lamps := u, leds := v } := by
  unfold execLampx
  cases s.cfg.lampExtender with
  | none => exact ⟨s.lamps, s.leds, rfl⟩
  | smallCard | largeCardA | largeCardC => exact ⟨_, s.leds, rfl⟩
  | largeCardB =>
    obtain ⟨u, v, h⟩ := largeCardLampsAndLed_writes s data
    exact ⟨u, v, congrArg _ h⟩

/-- LEDW completes only without a card (42_led_alpha.md R193). -/
theorem execLedw_next {t : State} (h : execLedw data s = .next t) : t = ledWrite data s := by
  unfold execLedw at h
  split at h
  · exact (Host.Outcome.next.inj h).symm
  · cases h
  · cases h

theorem execAlphaclk_writes (level : Bool) :
    ∃ u es, execAlphaclk level s = .next { s with leds := u, out := s.out ++ es } := by
  simp only [execAlphaclk]
  split
  · exact ⟨_, _, rfl⟩
  · exact ⟨{ s.leds with alphaClk := level }, [], by rw [List.append_nil]⟩

/-- TICK completes only under a mode with a table (46_reel_meter_mux.md R269). -/
theorem execTick_next {t : State} (h : execTick s = .next t) :
    ∃ u es, t = { s with reel := u, out := s.out ++ es } := by
  unfold execTick at h
  split at h
  · cases h
  · exact ⟨_, _, (Host.Outcome.next.inj h).symm⟩

theorem barcrestWrite_writes (tbl : Vector ChrRow 72) :
    ∃ u, barcrestWrite tbl offset call s = { s with chr := u } := by
  unfold barcrestWrite
  split
  · exact ⟨_, rfl⟩
  · split
    · exact ⟨_, rfl⟩
    · exact ⟨s.chr, rfl⟩

theorem barcrestRead_replies (tbl : Vector ChrRow 72) :
    ∃ v, barcrestRead tbl offset s = s.replyChr v := by
  unfold barcrestRead
  split
  · exact ⟨_, rfl⟩
  · split <;> exact ⟨_, rfl⟩

theorem fallbackRead_writes :
    ∃ es u v, fallbackRead s = { s with
      out := s.out ++ es, chr := u, chrReplies := s.chrReplies ++ [v],
      chrDraws := s.chrDraws + 1 } := by
  obtain ⟨es, h⟩ := raiseCharacteriserFault_spec s
  rw [fallbackRead, h]
  exact ⟨es, _, _, rfl⟩

theorem bwbRespond_writes (tables : BwbTables) (r : Nat) :
    ∃ u n, bwbRespond tables r s = { s with chr := u, chrDraws := s.chrDraws + n } := by
  unfold bwbRespond
  split
  · exact ⟨_, 0, rfl⟩
  · exact ⟨_, 1, rfl⟩

theorem bwbScan_writes (tables : BwbTables) :
    ∃ u n, bwbScan tables call s = { s with chr := u, chrDraws := s.chrDraws + n } := by
  unfold bwbScan
  split
  · exact ⟨_, 1, rfl⟩
  · exact bwbRespond_writes s tables _

theorem bwbWrite_writes (tables : BwbTables) :
    ∃ u n, bwbWrite tables offset call s = { s with chr := u, chrDraws := s.chrDraws + n } := by
  unfold bwbWrite
  split
  · exact bwbScan_writes { s with chr := bwbBaseAccess call s.chr } call tables
  · exact bwbScan_writes s call tables

theorem bwbRead_writes (tables : BwbTables) :
    ∃ u v, bwbRead tables offset s =
      { s with chr := u, chrReplies := s.chrReplies ++ [v] } := by
  unfold bwbRead
  split
  · split
    · split
      · exact ⟨_, _, rfl⟩
      · exact ⟨s.chr, _, rfl⟩
    · exact ⟨_, _, rfl⟩
  · exact ⟨s.chr, _, rfl⟩

/-- CHRW under any characteriser (44_characteriser_barcrest.md R220). -/
theorem execChrw_writes :
    ∃ es u n, execChrw offset call s =
      .next { s with out := s.out ++ es, chr := u, chrDraws := s.chrDraws + n } := by
  unfold execChrw
  cases s.cfg.chr with
  | none =>
    obtain ⟨es, h⟩ := raiseCharacteriserFault_spec s
    exact ⟨es, _, 0, congrArg _ h⟩
  | barcrest tbl =>
    obtain ⟨u, h⟩ := barcrestWrite_writes s offset call tbl
    exact ⟨[], u, 0, by simp [h]⟩
  | bwb tables =>
    obtain ⟨u, n, h⟩ := bwbWrite_writes s offset call tables
    exact ⟨[], u, n, by simp [h]⟩

/-- CHRR under any characteriser (44_characteriser_barcrest.md R220). -/
theorem execChrr_writes :
    ∃ es u v n, execChrr offset s = .next { s with
      out := s.out ++ es, chr := u, chrReplies := s.chrReplies ++ [v],
      chrDraws := s.chrDraws + n } := by
  unfold execChrr
  cases s.cfg.chr with
  | none =>
    obtain ⟨es, u, v, h⟩ := fallbackRead_writes s
    exact ⟨es, u, v, 1, congrArg _ h⟩
  | barcrest tbl =>
    obtain ⟨v, h⟩ := barcrestRead_replies s offset tbl
    exact ⟨[], s.chr, v, 0, by simp [h, State.replyChr]⟩
  | bwb tables =>
    obtain ⟨u, v, h⟩ := bwbRead_writes s offset tables
    exact ⟨[], u, v, 0, by simp [h]⟩

theorem expireBy_writes (target : Nat) :
    ∃ u n, expireBy target s = { s with strobe := u, now := n } := by
  unfold expireBy
  split
  · exact ⟨s.strobe, s.now, rfl⟩
  · split
    · exact ⟨_, _, rfl⟩
    · exact ⟨s.strobe, s.now, rfl⟩

theorem execWait_writes (n : BitVec 16) :
    ∃ u, execWait n s = .next { s with strobe := u, now := s.now + n.toNat } := by
  obtain ⟨u, m, h⟩ := expireBy_writes s (s.now + n.toNat)
  exact ⟨u, by rw [execWait, h]⟩

/-- The event of IC24 is enabled only while its expiry is due (log 3). -/
theorem execIc24exp_next {t : State} (h : execIc24exp s = .next t) : t = ic24Expire s := by
  unfold execIc24exp at h
  split at h
  · exact (Host.Outcome.next.inj h).symm
  · cases h

end writes

/-! ## The configuration is read-only (00_scope.md R3) -/

/-- No operation writes the configuration. -/
theorem exec_keeps_cfg {i : Instr} {s t : State} (h : exec i s = .next t) : t.cfg = s.cfg := by
  cases i with
  | setgateA | setgateB | setgateC | setinhG1 | setinhG2A | setinhG2B | alphadat
  | inread | aux1r | aux2r | meterw | triacw | reset =>
    obtain rfl := Host.Outcome.next.inj h
    rfl
  | lampa data =>
    obtain ⟨u, hu⟩ := execLampa_writes s data
    obtain rfl := Host.Outcome.next.inj (hu.symm.trans h)
    rfl
  | lampb data =>
    obtain ⟨u, hu⟩ := execLampb_writes s data
    obtain rfl := Host.Outcome.next.inj (hu.symm.trans h)
    rfl
  | lampx data =>
    obtain ⟨u, v, hu⟩ := execLampx_writes s data
    obtain rfl := Host.Outcome.next.inj (hu.symm.trans h)
    rfl
  | ledw data => rw [execLedw_next s data h]; rfl
  | alphaclk level =>
    obtain ⟨u, es, hu⟩ := execAlphaclk_writes s level
    obtain rfl := Host.Outcome.next.inj (hu.symm.trans h)
    rfl
  | chrw offset call =>
    obtain ⟨es, u, n, hu⟩ := execChrw_writes s offset call
    obtain rfl := Host.Outcome.next.inj (hu.symm.trans h)
    rfl
  | chrr offset =>
    obtain ⟨es, u, v, n, hu⟩ := execChrr_writes s offset
    obtain rfl := Host.Outcome.next.inj (hu.symm.trans h)
    rfl
  | tick =>
    obtain ⟨u, es, rfl⟩ := execTick_next s h
    rfl
  | wait n =>
    obtain ⟨u, hu⟩ := execWait_writes s n
    obtain rfl := Host.Outcome.next.inj (hu.symm.trans h)
    rfl
  | ic24exp => rw [execIc24exp_next s h, ic24Expire_cfg]

theorem step_keeps_cfg {s t : State} (h : step s = .next t) : t.cfg = s.cfg := by
  obtain hexp | rfl | ⟨i, rest, hrun⟩ := step_eq_next_cases h
  · exact exec_keeps_cfg hexp
  · rfl
  · exact (exec_keeps_cfg hrun).trans rfl

/-! ## The checks of load (70_reset_and_hazards.md R310, R311) -/

theorem checkKnown_eq_ok {α : Type} {field : CfgField} {v : Option α} {a : α} :
    checkKnown field v = .ok a ↔ v = some a := by
  cases v <;> simp [checkKnown]

theorem checkTable_eq_ok {α : Type} {n : Nat} {rows : List α} {v : Vector α n} :
    checkTable n rows = .ok v ↔ rows = v.toList := by
  unfold checkTable
  split
  next h =>
    subst h
    rw [Except.ok.injEq, ← Vector.toList_inj]
    simp
  next h =>
    simp only [reduceCtorEq, false_iff]
    rintro rfl
    exact h v.length_toList

theorem checkBwbTable_eq_ok {n : Nat} {rows : Option (List Byte)} {v : Vector Byte n} :
    checkBwbTable n rows = .ok v ↔ rows = some v.toList := by
  cases rows <;> simp [checkBwbTable, checkTable_eq_ok]

theorem bind_eq_ok {ε α β : Type} {x : Except ε α} {f : α → Except ε β} {b : β} :
    x >>= f = .ok b ↔ ∃ a, x = .ok a ∧ f a = .ok b := by
  cases x <;> simp [bind, Except.bind]

theorem map_eq_ok {ε α β : Type} {x : Except ε α} {f : α → β} {b : β} :
    x.map f = .ok b ↔ ∃ a, x = .ok a ∧ f a = b := by
  cases x <;> simp [Except.map]

/-- A characteriser configuration that passes its check holds exactly the tables supplied. -/
theorem sameTables_of_checkChr {r : RawChr} {c : ChrConfig} (h : checkChr r = .ok c) :
    sameTables r c := by
  cases r with
  | none => exact (Except.ok.inj h).symm
  | barcrest rows =>
    obtain ⟨tbl, htbl, rfl⟩ := map_eq_ok.1 h
    exact ⟨tbl, rfl, (checkTable_eq_ok.1 htbl).symm⟩
  | bwb calls common game =>
    obtain ⟨commonCall, hcalls, h⟩ := bind_eq_ok.1 h
    obtain ⟨commonResp, hcommon, h⟩ := bind_eq_ok.1 h
    obtain ⟨gameResp, hgame, h⟩ := bind_eq_ok.1 h
    exact ⟨_, (Except.ok.inj h).symm, checkBwbTable_eq_ok.1 hcalls, checkBwbTable_eq_ok.1 hcommon,
      checkBwbTable_eq_ok.1 hgame⟩

/-- A configuration that passes validation holds the five fields of the record supplied. -/
theorem validate_holds_record {r : RawCfg} {c : Cfg} (h : validate r = .ok c) :
    c.reelCount = r.reelCount ∧ r.reelMode = some c.reelMode ∧
      r.lampExtender = some c.lampExtender ∧ r.ledExtender = some c.ledExtender ∧
      sameTables r.chr c.chr := by
  obtain ⟨lampExtender, hlamp, h⟩ := bind_eq_ok.1 h
  obtain ⟨ledExtender, hled, h⟩ := bind_eq_ok.1 h
  obtain ⟨reelMode, hreel, h⟩ := bind_eq_ok.1 h
  obtain ⟨chr, hchr, h⟩ := bind_eq_ok.1 h
  obtain ⟨_, _, h⟩ := bind_eq_ok.1 h
  obtain ⟨_, _, h⟩ := bind_eq_ok.1 h
  obtain ⟨_, _, h⟩ := bind_eq_ok.1 h
  obtain ⟨_, _, h⟩ := bind_eq_ok.1 h
  obtain rfl := Except.ok.inj h
  exact ⟨rfl, checkKnown_eq_ok.1 hreel, checkKnown_eq_ok.1 hlamp, checkKnown_eq_ok.1 hled,
    sameTables_of_checkChr hchr⟩

end Sys2Proof.Machine

namespace Sys2Proof.Claims

open Sys2Proof.Machine

/-! ## The statements -/

/-- Settles O46: load keeps each field that passes its check, and what an operation can write never
includes the configuration. -/
theorem configurationImmutable : Obligations.ConfigurationImmutable := by
  refine ⟨fun r s h => ?_, fun i s t => exec_keeps_cfg, fun s t => step_keeps_cfg⟩
  obtain ⟨c, hc, rfl⟩ := map_eq_ok.1 h
  exact validate_holds_record hc

/-- Settles O55, one case of a step after the other. -/
theorem stepRunsDecodedOperation : Obligations.StepRunsDecodedOperation := by
  refine fun s => ⟨step_of_due, fun hdue => ⟨?_, ?_, ?_, step_of_no_word hdue⟩⟩
  · intro w rest i hs hw hi
    exact step_of_host_word hdue hs (decodeHost_of_ok hw hi)
  · intro w rest e hs hw
    exact step_of_bad_word hdue hs (decodeHost_of_error hw)
  · intro rest hs
    exact step_of_bad_word hdue hs decodeHost_encode_ic24exp

/-- Settles O56: the placed word is the oldest of the stream, and the decoder reads it back. -/
theorem placedWordRunsNext : Obligations.PlacedWordRunsNext := by
  refine ⟨fun s i hdue hi => ?_, fun s => ?_⟩
  · have hword : encode i ≠ encode .ic24exp := fun h => hi (encode_injective h)
    rw [withFetchWord_toNat, placeOperation_of_not_due hdue hword]
    exact step_of_host_word hdue rfl (decodeHost_of_ok (decode_encode i) hi)
  · have hdue := placeOperation_of_expiry s
    have hstep : step (placeOperation s (encode .ic24exp)) =
        .next (ic24Expire (placeOperation s (encode .ic24exp))) :=
      (step_of_due ((expiryDue_eq_true_iff _).1 hdue)).trans (exec_ic24exp_of_due hdue)
    exact ⟨_, hstep, by simp, by simp⟩

end Sys2Proof.Claims

/-! # State (10_state.md): what an operation can write, and what every step keeps

First the inversion lemma of `exec`, which says once what each operation can write; then the cell
arrays, the column, the pulse, the BwB counter and the fault log, each with what keeps it. -/

namespace Sys2Proof.Machine

open Sys2Proof.Claims

/-! ## What each operation can write (10_state.md R30 to R68) -/

/-- LAMPX writes the secondary LED cells under LARGE_CARD_B alone (41_lamp_matrix.md R182). -/
theorem execLampx_writes_led2 (s : State) (data : Byte) :
    ∃ u v, (s.cfg.lampExtender ≠ .largeCardB → v = s.leds.led2) ∧
      execLampx data s = .next { s with lamps := u, leds := { s.leds with led2 := v } } := by
  unfold execLampx
  cases s.cfg.lampExtender with
  | none => exact ⟨s.lamps, s.leds.led2, fun _ => rfl, rfl⟩
  | smallCard | largeCardA | largeCardC => exact ⟨_, s.leds.led2, fun _ => rfl, rfl⟩
  | largeCardB =>
    simp only [largeCardLampsAndLed]
    split
    · exact ⟨_, _, fun h => absurd rfl h, rfl⟩
    · exact ⟨_, s.leds.led2, fun h => absurd rfl h, rfl⟩

/-- ALPHACLK writes its own line, and what it sends is no log event (42_led_alpha.md R195). -/
theorem execAlphaclk_writes_line (s : State) (level : Bool) :
    ∃ es, Event.log .characteriserFault ∉ es ∧ execAlphaclk level s =
      .next { s with leds := { s.leds with alphaClk := level }, out := s.out ++ es } := by
  simp only [execAlphaclk]
  split
  · exact ⟨[.alphaBit s.leds.alphaDat], by simp, rfl⟩
  · exact ⟨[], by simp, by rw [List.append_nil]⟩

theorem log_not_mem_meterPulses (m : Byte) (c : Condition) : Event.log c ∉ meterPulses m := by
  simp [meterPulses]

/-- The stepper events of a tick hold no log event (46_reel_meter_mux.md R265 to R267). -/
theorem log_not_mem_of_modeUpdate {cfg : Cfg} {flutter flutter' : Bool} {d meters : Byte}
    {steppers : List Event} (c : Condition)
    (h : modeUpdate cfg flutter d = some (meters, steppers, flutter')) :
    Event.log c ∉ steppers := by
  unfold modeUpdate at h
  cases hm : cfg.reelMode <;> simp only [hm, Option.some.injEq, Prod.mk.injEq, reduceCtorEq] at h
  all_goals
    obtain ⟨-, rfl, -⟩ := h
    simp

/-- TICK writes the reel unit, and emits no log event (46_reel_meter_mux.md R264, R270). -/
theorem execTick_next_of_log_free {s t : State} (h : execTick s = .next t) :
    ∃ u es, Event.log .characteriserFault ∉ es ∧ t = { s with reel := u, out := s.out ++ es } := by
  unfold execTick at h
  split at h
  · cases h
  next meters steppers flutter hm =>
    refine ⟨_, _, ?_, (Host.Outcome.next.inj h).symm⟩
    simp [log_not_mem_of_modeUpdate _ hm, log_not_mem_meterPulses]

/-- WAIT before the deadline, or without one: only the clock moves (70_reset_and_hazards.md R318). -/
theorem execWait_of_ahead {s : State} {n : BitVec 16}
    (hd : ∀ d, s.strobe.ic24Deadline = some d → s.now + n.toNat < d) :
    execWait n s = .next { s with now := s.now + n.toNat } := by
  cases hdl : s.strobe.ic24Deadline with
  | none => simp [execWait, expireBy, hdl]
  | some d => simp [execWait, expireBy, hdl, Nat.not_le.2 (hd d hdl)]

/-- WAIT to the deadline or past it takes the expiry (70_reset_and_hazards.md R318). -/
theorem execWait_of_reached {s : State} {n : BitVec 16} {d : Nat}
    (hd : s.strobe.ic24Deadline = some d) (hle : d ≤ s.now + n.toNat) :
    execWait n s =
      .next { s with strobe := s.strobe.expire s.cfg, now := s.now + n.toNat } := by
  simp [execWait, expireBy, hd, hle, ic24Expire]

/-- What each operation can write: the fields of `s` in which `t` may differ, with their values where the
operation has one course, and the two courses of WAIT with their guards. -/
inductive Writes (s : State) : Instr → State → Prop
  | setgateA (l : Bool) :
      Writes s (.setgateA l) { s with strobe := s.strobe.setGateA s.cfg s.now l }
  | setgateB (l : Bool) :
      Writes s (.setgateB l) { s with strobe := Strobe.recompute { s.strobe with gb := l } }
  | setgateC (l : Bool) :
      Writes s (.setgateC l) { s with strobe := Strobe.recompute { s.strobe with gc := l } }
  | setinhG1 (l : Bool) :
      Writes s (.setinhG1 l) { s with strobe := Strobe.recompute { s.strobe with g1 := l } }
  | setinhG2A (l : Bool) :
      Writes s (.setinhG2A l) { s with strobe := Strobe.recompute { s.strobe with g2a := l } }
  | setinhG2B (l : Bool) :
      Writes s (.setinhG2B l) { s with strobe := Strobe.recompute { s.strobe with g2b := l } }
  | lampa (d : Byte) (u : LampUnit) : Writes s (.lampa d) { s with lamps := u }
  | lampb (d : Byte) (u : LampUnit) : Writes s (.lampb d) { s with lamps := u }
  | lampx (d : Byte) (u : LampUnit) (v : Memory Byte)
      (hv : s.cfg.lampExtender ≠ .largeCardB → v = s.leds.led2) :
      Writes s (.lampx d) { s with lamps := u, leds := { s.leds with led2 := v } }
  | ledw (d : Byte) : Writes s (.ledw d) (ledWrite d s)
  | alphaclk (l : Bool) (es : List Event) (hes : .log .characteriserFault ∉ es) :
      Writes s (.alphaclk l)
        { s with leds := { s.leds with alphaClk := l }, out := s.out ++ es }
  | alphadat (l : Bool) :
      Writes s (.alphadat l) { s with leds := { s.leds with alphaDat := l } }
  | inread (v : Byte) : Writes s .inread (s.drawnInput.replyInput v)
  | aux1r (v : Byte) : Writes s .aux1r (s.drawnInput.replyInput v)
  | aux2r (v : Byte) : Writes s .aux2r (s.drawnInput.replyInput v)
  | chrw (o c : Byte) (es : List Event) (u : ChrUnit) (n : Nat) :
      Writes s (.chrw o c)
        { s with out := s.out ++ es, chr := u, chrDraws := s.chrDraws + n }
  | chrr (o : Byte) (es : List Event) (u : ChrUnit) (v : Byte) (n : Nat) :
      Writes s (.chrr o)
        { s with
          out := s.out ++ es, chr := u, chrReplies := s.chrReplies ++ [v],
          chrDraws := s.chrDraws + n }
  | meterw (d : Byte) : Writes s (.meterw d) { s with reel := { s.reel with mmtrData := d } }
  | triacw (d : Byte) : Writes s (.triacw d) { s with reel := { s.reel with triacData := d } }
  | tick (u : ReelUnit) (es : List Event) (hes : .log .characteriserFault ∉ es) :
      Writes s .tick { s with reel := u, out := s.out ++ es }
  | reset :
      Writes s .reset
        { s with
          strobe := .atReset, lamps := .atReset, leds := .atReset, chr := .atReset,
          reel := .atReset }
  | waitAhead (n : BitVec 16)
      (hd : ∀ d, s.strobe.ic24Deadline = some d → s.now + n.toNat < d) :
      Writes s (.wait n) { s with now := s.now + n.toNat }
  | waitReached (n : BitVec 16) (d : Nat) (hd : s.strobe.ic24Deadline = some d)
      (hle : d ≤ s.now + n.toNat) :
      Writes s (.wait n)
        { s with strobe := s.strobe.expire s.cfg, now := s.now + n.toNat }
  | ic24exp : Writes s .ic24exp (ic24Expire s)

/-- The inversion lemma of `exec`: an operation that completes wrote what its case of `Writes` allows. -/
theorem writes_of_exec {i : Instr} {s t : State} (h : exec i s = .next t) : Writes s i t := by
  cases i with
  | setgateA | setgateB | setgateC | setinhG1 | setinhG2A | setinhG2B | alphadat
  | inread | aux1r | aux2r | meterw | triacw | reset =>
    obtain rfl := Host.Outcome.next.inj h
    constructor
  | lampa data =>
    obtain ⟨u, hu⟩ := execLampa_writes s data
    obtain rfl := Host.Outcome.next.inj (hu.symm.trans h)
    exact .lampa data u
  | lampb data =>
    obtain ⟨u, hu⟩ := execLampb_writes s data
    obtain rfl := Host.Outcome.next.inj (hu.symm.trans h)
    exact .lampb data u
  | lampx data =>
    obtain ⟨u, v, hv, hu⟩ := execLampx_writes_led2 s data
    obtain rfl := Host.Outcome.next.inj (hu.symm.trans h)
    exact .lampx data u v hv
  | ledw data => exact execLedw_next s data h ▸ .ledw data
  | alphaclk level =>
    obtain ⟨es, hes, hu⟩ := execAlphaclk_writes_line s level
    obtain rfl := Host.Outcome.next.inj (hu.symm.trans h)
    exact .alphaclk level es hes
  | chrw offset call =>
    obtain ⟨es, u, n, hu⟩ := execChrw_writes s offset call
    obtain rfl := Host.Outcome.next.inj (hu.symm.trans h)
    exact .chrw offset call es u n
  | chrr offset =>
    obtain ⟨es, u, v, n, hu⟩ := execChrr_writes s offset
    obtain rfl := Host.Outcome.next.inj (hu.symm.trans h)
    exact .chrr offset es u v n
  | tick =>
    obtain ⟨u, es, hes, rfl⟩ := execTick_next_of_log_free h
    exact .tick u es hes
  | wait n =>
    by_cases hd : ∀ d, s.strobe.ic24Deadline = some d → s.now + n.toNat < d
    · obtain rfl := Host.Outcome.next.inj ((execWait_of_ahead hd).symm.trans h)
      exact .waitAhead n hd
    · push Not at hd
      obtain ⟨d, hd, hle⟩ := hd
      obtain rfl := Host.Outcome.next.inj ((execWait_of_reached hd hle).symm.trans h)
      exact .waitReached n d hd hle
  | ic24exp => exact execIc24exp_next s h ▸ .ic24exp

/-! ## Cell arrays within their spaces (20_memory.md R70, R71) -/

section within

variable {β : Type} {blank : β} {used : Nat → Prop} {m : Memory β}

/-- A canonical array that lists only cells of its space. -/
def Memory.Within (blank : β) (used : Nat → Prop) (m : Memory β) : Prop :=
  Memory.wf blank m ∧ ∀ p ∈ m, used p.1

theorem within_nil : Memory.Within blank used [] := ⟨wf_nil blank, by simp⟩

theorem Memory.Within.write [DecidableEq β] {a : Nat} {v : β} (h : Memory.Within blank used m)
    (ha : used a) : Memory.Within blank used (Memory.write blank m a v) := by
  refine ⟨wf_write _ _ _ _ h.1, fun p hp => ?_⟩
  obtain rfl | hp := mem_write _ _ _ _ _ hp
  · exact ha
  · exact h.2 p hp

/-- Writing a group of cells of the space keeps the array within it. -/
theorem Memory.Within.writeBits {m : Memory Bool} {w base n : Nat} {data : BitVec w}
    (h : Memory.Within lampOff used m) (hbase : ∀ k, inGroup base n k → used k) :
    Memory.Within lampOff used (Memory.writeBits m base data n) := by
  refine ⟨wf_writeBits _ _ _ _ h.1, fun p hp => ?_⟩
  obtain hp | hp := mem_writeBits _ _ _ _ _ hp
  · exact hbase _ hp
  · exact h.2 p hp

end within

/-- The soundness of the cells, array by array. -/
theorem cellsSound_iff (s : State) :
    s.CellsSound ↔
      Memory.Within lampOff (lampCellUsed s.cfg.lampExtender) s.lamps.lamp ∧
      Memory.Within ledBlank (· < 8) s.leds.led ∧ Memory.Within ledBlank (· < 16) s.leds.led2 ∧
      (s.cfg.lampExtender ≠ .largeCardB → s.leds.led2 = []) :=
  ⟨fun h => ⟨⟨h.lampForm, h.lampUsed⟩, ⟨h.ledForm, h.ledRange⟩, ⟨h.led2Form, h.led2Range⟩,
    h.led2Owner⟩,
  fun ⟨hlamp, hled, hled2, howner⟩ =>
    ⟨hlamp.1, hled.1, hled2.1, hlamp.2, hled.2, hled2.2, howner⟩⟩

/-! The groups each port and each card addresses. -/

theorem lampCellUsed_of_baseline (kind : LampExtenderKind) {k : Nat} (h : k < 128) :
    lampCellUsed kind k := by
  cases kind <;> simp [lampCellUsed, h]

theorem lampCellUsed_of_smallCard (c : BitVec 3) {k : Nat} (h : inGroup (smallCardBase c) 5 k) :
    lampCellUsed .smallCard k := by
  have hc := c.isLt
  simp only [inGroup, smallCardBase] at h
  simp only [lampCellUsed]
  omega

/-- A kind whose cells are two banks of eight groups of seven (20_memory.md R71). -/
def isLargeCard (kind : LampExtenderKind) : Prop :=
  kind = .largeCardA ∨ kind = .largeCardB ∨ kind = .largeCardC

theorem lampCellUsed_of_largeCard {kind : LampExtenderKind} (hkind : isLargeCard kind) (bank : Bool)
    (c : BitVec 3) {k : Nat} (h : inGroup (largeCardBase bank c) 7 k) : lampCellUsed kind k := by
  have hc := c.isLt
  have hb := bank.toNat_lt
  have hk : k < 256 ∧ k % 8 < 7 := by
    simp only [inGroup, largeCardBase] at h
    omega
  obtain rfl | rfl | rfl := hkind <;> exact .inr hk

theorem ledDigit_lt (wiring : LedWiring) (c : BitVec 3) : ledDigit wiring c < 8 := by
  have hc := c.isLt
  cases wiring <;> simp only [ledDigit] <;> omega

theorem led2Index_lt (bank : Bool) (c : BitVec 3) : led2Index bank c < 16 := by
  have hc := c.isLt
  have hb := bank.toNat_lt
  simp only [led2Index]
  omega

section cells

variable {s t : State}

/-- The cells rest on the card and on the three arrays alone. -/
theorem State.CellsSound.of_eq (hs : s.CellsSound) (hcfg : t.cfg = s.cfg)
    (hlamp : t.lamps.lamp = s.lamps.lamp) (hled : t.leds.led = s.leds.led)
    (hled2 : t.leds.led2 = s.leds.led2) : t.CellsSound := by
  rw [cellsSound_iff, hcfg, hlamp, hled, hled2]
  exact (cellsSound_iff s).1 hs

theorem State.CellsSound.of_lamps (hs : s.CellsSound) {u : LampUnit}
    (hu : Memory.Within lampOff (lampCellUsed s.cfg.lampExtender) u.lamp) :
    State.CellsSound { s with lamps := u } :=
  (cellsSound_iff _).2 ⟨hu, ((cellsSound_iff s).1 hs).2⟩

theorem State.CellsSound.lampWithin (hs : s.CellsSound) :
    Memory.Within lampOff (lampCellUsed s.cfg.lampExtender) s.lamps.lamp :=
  ((cellsSound_iff s).1 hs).1

/-- LAMPA writes cells 0 to 63 (20_memory.md R71). -/
theorem execLampa_keeps_cells {data : Byte} (hs : s.CellsSound) (h : execLampa data s = .next t) :
    t.CellsSound := by
  unfold execLampa at h
  split at h
  · obtain rfl := Host.Outcome.next.inj h
    refine hs.of_lamps (hs.lampWithin.writeBits fun k hk => lampCellUsed_of_baseline _ ?_)
    have hc := s.strobe.column.isLt
    simp only [inGroup, portABase] at hk
    omega
  · exact Host.Outcome.next.inj h ▸ hs

/-- LAMPB writes cells 64 to 127 (20_memory.md R71). -/
theorem execLampb_keeps_cells {data : Byte} (hs : s.CellsSound) (h : execLampb data s = .next t) :
    t.CellsSound := by
  unfold execLampb at h
  split at h
  · obtain rfl := Host.Outcome.next.inj h
    refine hs.of_lamps (hs.lampWithin.writeBits fun k hk => lampCellUsed_of_baseline _ ?_)
    have hc := s.strobe.column.isLt
    simp only [inGroup, portBBase] at hk
    omega
  · exact Host.Outcome.next.inj h ▸ hs

theorem smallCardWrite_within {cfg : Cfg} {data : Byte} {u : LampUnit}
    (hu : Memory.Within lampOff (lampCellUsed .smallCard) u.lamp) :
    Memory.Within lampOff (lampCellUsed .smallCard) (smallCardWrite cfg data u).lamp := by
  simp only [smallCardWrite]
  split
  · exact hu.writeBits fun k => lampCellUsed_of_smallCard _
  · exact hu

theorem largeCardWrite_within {kind : LampExtenderKind} (hkind : isLargeCard kind) {strobe : Strobe}
    {data : Byte} {u : LampUnit} (hu : Memory.Within lampOff (lampCellUsed kind) u.lamp) :
    Memory.Within lampOff (lampCellUsed kind) (largeCardWrite strobe data u).lamp := by
  simp only [largeCardWrite]
  split
  · exact hu.writeBits fun k => lampCellUsed_of_largeCard hkind _ _
  · exact hu

theorem largeCardLamps_keeps_cells {data : Byte} (hkind : isLargeCard s.cfg.lampExtender)
    (hs : s.CellsSound) : (largeCardLamps data s).CellsSound :=
  hs.of_lamps (largeCardWrite_within hkind hs.lampWithin)

/-- Under LARGE_CARD_B the secondary LED cell is one of the sixteen (41_lamp_matrix.md R182). -/
theorem largeCardLampsAndLed_keeps_cells {data : Byte} (hkind : s.cfg.lampExtender = .largeCardB)
    (hs : s.CellsSound) : (largeCardLampsAndLed data s).CellsSound := by
  have hlamps := largeCardLamps_keeps_cells (data := data) (.inr (.inl hkind)) hs
  simp only [largeCardLampsAndLed]
  split
  · obtain ⟨hlamp, hled, hled2, -⟩ := (cellsSound_iff _).1 hlamps
    exact (cellsSound_iff _).2
      ⟨hlamp, hled, hled2.write (led2Index_lt _ _), fun hne => absurd hkind hne⟩
  · exact hlamps

/-- LAMPX writes cells of the configured card (41_lamp_matrix.md R170). -/
theorem execLampx_keeps_cells {data : Byte} (hs : s.CellsSound) (h : execLampx data s = .next t) :
    t.CellsSound := by
  unfold execLampx at h
  split at h <;> rename_i hkind <;> obtain rfl := Host.Outcome.next.inj h
  · exact hs
  · exact hs.of_lamps (hkind ▸ smallCardWrite_within (hkind ▸ hs.lampWithin))
  · exact largeCardLamps_keeps_cells (.inl hkind) hs
  · exact largeCardLampsAndLed_keeps_cells hkind hs
  · exact largeCardLamps_keeps_cells (.inr (.inr hkind)) hs

theorem ledWrite_keeps_cells {data : Byte} (hs : s.CellsSound) : (ledWrite data s).CellsSound := by
  obtain ⟨hlamp, hled, hled2⟩ := (cellsSound_iff s).1 hs
  exact (cellsSound_iff _).2 ⟨hlamp, hled.write (ledDigit_lt _ _), hled2⟩

/-- Only the lamp and LED writes reach the arrays, each inside its space. -/
theorem exec_keeps_cells {i : Instr} (hs : s.CellsSound) (h : exec i s = .next t)
    (hi : i ≠ .reset) : t.CellsSound := by
  cases writes_of_exec h with
  | lampa => exact execLampa_keeps_cells hs h
  | lampb => exact execLampb_keeps_cells hs h
  | lampx => exact execLampx_keeps_cells hs h
  | ledw => exact ledWrite_keeps_cells hs
  | reset => exact absurd rfl hi
  | _ => exact hs.of_eq rfl rfl rfl rfl

end cells

/-! ## The column (40_strobe_sequencer.md R142, R154, R155) -/

section column

variable {s t : State}

/-- The column rests on the sequencer alone. -/
theorem State.ColumnSound.of_eq (hs : s.ColumnSound) (hstrobe : t.strobe = s.strobe) :
    t.ColumnSound := by
  obtain ⟨hinhibited, hdecoded⟩ := hs
  exact ⟨hstrobe ▸ hinhibited, hstrobe ▸ hdecoded⟩

/-- Whatever the lines were, `recompute` leaves a sound column. -/
theorem columnSound_of_recompute (u : Strobe) (h : t.strobe = u.recompute) : t.ColumnSound where
  inhibited hg := by
    simp only [h, recompute_g2a, recompute_g2b] at hg ⊢
    exact recompute_column_of_inhibit u hg
  decoded ha hb h1 := by
    simp only [h, recompute_g2a, recompute_g2b, recompute_g1, recompute_ga, recompute_gb,
      recompute_gc] at ha hb h1 ⊢
    rw [recompute_column_of_enabled u h1 ha hb, gateColumn_toNat]

/-- Every operation that writes a line, and the expiry, ends in a `recompute`. -/
theorem exec_keeps_column {i : Instr} (hs : s.ColumnSound) (h : exec i s = .next t)
    (hi : i ≠ .reset) : t.ColumnSound := by
  cases writes_of_exec h with
  | setgateA | setgateB | setgateC | setinhG1 | setinhG2A | setinhG2B | waitReached | ic24exp =>
    exact columnSound_of_recompute _ rfl
  | reset => exact absurd rfl hi
  | _ => exact hs.of_eq rfl

end column

/-! ## The pulse (40_strobe_sequencer.md R151, R153; 70_reset_and_hazards.md R318) -/

section timer

variable {s t : State}

/-- The pulse rests on the configuration, the two pulse fields and the clock. -/
theorem State.TimerSound.of_eq (hs : s.TimerSound) (hcfg : t.cfg = s.cfg)
    (hactive : t.strobe.strobeActive = s.strobe.strobeActive)
    (hdeadline : t.strobe.ic24Deadline = s.strobe.ic24Deadline) (hnow : t.now = s.now) :
    t.TimerSound := by
  obtain ⟨hpos, hiff, hahead⟩ := hs
  exact ⟨hcfg ▸ hpos, by rw [hactive, hdeadline]; exact hiff, by rw [hdeadline, hnow]; exact hahead⟩

theorem timerSound_of_idle (hpos : 0 < t.cfg.tIc24) (hactive : t.strobe.strobeActive = false)
    (hdeadline : t.strobe.ic24Deadline = none) : t.TimerSound :=
  ⟨hpos, by simp [hactive, hdeadline], by simp [hdeadline]⟩

/-- A pulse just started ends after `T_IC24`, which is positive. -/
theorem timerSound_of_triggered (hpos : 0 < t.cfg.tIc24) (hactive : t.strobe.strobeActive = true)
    (hdeadline : t.strobe.ic24Deadline = some (t.now + t.cfg.tIc24)) : t.TimerSound := by
  refine ⟨hpos, by simp [hactive, hdeadline], fun d hd => ?_⟩
  obtain rfl := Option.some.inj (hdeadline.symm.trans hd)
  exact Nat.lt_add_of_pos_right hpos

/-- A gate-A write starts the pulse on a rise, and else leaves it alone. -/
theorem setGateA_keeps_timer (level : Bool) (hs : s.TimerSound) :
    State.TimerSound { s with strobe := s.strobe.setGateA s.cfg s.now level } := by
  by_cases hrise : risingEdge s.strobe.ga level = true
  · exact timerSound_of_triggered hs.pulsePositive (by simp [Strobe.setGateA, hrise])
      (by simp [Strobe.setGateA, hrise])
  · exact hs.of_eq rfl (by simp [Strobe.setGateA, hrise]) (by simp [Strobe.setGateA, hrise]) rfl

/-- WAIT stops short of a deadline it does not take. -/
theorem exec_keeps_timer {i : Instr} (hs : s.TimerSound) (h : exec i s = .next t)
    (hi : i ≠ .reset) : t.TimerSound := by
  cases writes_of_exec h with
  | setgateA level => exact setGateA_keeps_timer level hs
  | setgateB | setgateC | setinhG1 | setinhG2A | setinhG2B =>
    exact hs.of_eq rfl (recompute_strobeActive _) (recompute_ic24Deadline _) rfl
  | waitAhead n hd => exact ⟨hs.pulsePositive, hs.activeIffPending, hd⟩
  | waitReached | ic24exp =>
    exact timerSound_of_idle hs.pulsePositive (expire_strobeActive _ _) (expire_ic24Deadline _ _)
  | reset => exact absurd rfl hi
  | _ => exact hs.of_eq rfl rfl rfl rfl

end timer

/-! ## The BwB counter (45_characteriser_bwb.md R242, R243, R250) -/

/-- The BwB part of a characteriser unit is consistent: the unit's side of `State.BwbSound`. -/
def ChrUnit.Consistent (u : ChrUnit) : Prop :=
  (u.chrState = .exhausted ↔ u.chrCounter.val = 35) ∧ (u.chrState = .uninit → u.initCol = 0)

theorem bwbSound_iff (s : State) : s.BwbSound ↔ s.chr.Consistent :=
  ⟨fun ⟨hceiling, hfresh⟩ => ⟨hceiling, hfresh⟩, fun ⟨hceiling, hfresh⟩ => ⟨hceiling, hfresh⟩⟩

section bwb

variable {s t : State} {u : ChrUnit}

/-- A base access leaves UNINIT with a count of 0, and elsewhere leaves state and counter alone. -/
theorem bwbBaseAccess_consistent (call : Byte) (hu : u.Consistent) :
    (bwbBaseAccess call u).Consistent := by
  obtain ⟨hceiling, -⟩ := hu
  by_cases hst : u.chrState = .uninit
  · simp [ChrUnit.Consistent, bwbBaseAccess, baseAccessNext, hst]
  · simpa [ChrUnit.Consistent, bwbBaseAccess, baseAccessNext, hst] using hceiling

/-- The counter reaches its ceiling and EXHAUSTED in the same read. -/
theorem bwbAdvance_consistent (hu : u.Consistent) : (bwbAdvance u).Consistent := by
  obtain ⟨hceiling, hfresh⟩ := hu
  by_cases hlt : u.chrCounter.val < 35
  · by_cases hlast : u.chrCounter.val + 1 = 35
    · simp [ChrUnit.Consistent, bwbAdvance, counterNext, hlt, hlast]
    · have hrunning : u.chrState ≠ .exhausted := fun he => by have := hceiling.1 he; omega
      simpa [ChrUnit.Consistent, bwbAdvance, counterNext, hlt, hlast, hrunning] using hfresh
  · simpa [ChrUnit.Consistent, bwbAdvance, counterNext, hlt] using ⟨hceiling, hfresh⟩

/-- A common call writes, of the unit, the value and the return index alone (R244, R245). -/
theorem bwbRespond_chr (tables : BwbTables) (r : Nat) (s : State) :
    ∃ v r', (bwbRespond tables r s).chr = { s.chr with chrValue := v, bwbReturn := r' } := by
  unfold bwbRespond
  split <;> exact ⟨_, _, rfl⟩

/-- The common scan, matched or not, writes no other field of the unit either (R244 to R246). -/
theorem bwbScan_chr (tables : BwbTables) (call : Byte) (s : State) :
    ∃ v r, (bwbScan tables call s).chr = { s.chr with chrValue := v, bwbReturn := r } := by
  unfold bwbScan
  cases commonCallIndex tables call with
  | none => exact ⟨_, s.chr.bwbReturn, rfl⟩
  | some x => exact bwbRespond_chr tables _ s

theorem bwbScan_consistent (tables : BwbTables) (call : Byte) (hs : s.chr.Consistent) :
    (bwbScan tables call s).chr.Consistent := by
  obtain ⟨v, r, h⟩ := bwbScan_chr tables call s
  rw [h]
  exact hs

theorem bwbWrite_consistent (tables : BwbTables) (offset call : Byte) (hs : s.chr.Consistent) :
    (bwbWrite tables offset call s).chr.Consistent := by
  unfold bwbWrite
  split
  · exact bwbScan_consistent tables call (bwbBaseAccess_consistent call hs)
  · exact bwbScan_consistent tables call hs

theorem bwbRead_consistent (tables : BwbTables) (offset : Byte) (hs : s.chr.Consistent) :
    (bwbRead tables offset s).chr.Consistent := by
  unfold bwbRead
  split
  · split
    · split
      · exact bwbAdvance_consistent hs
      · exact hs
    · exact bwbAdvance_consistent hs
  · exact hs

/-- The Barcrest write touches no field of the BwB variant. -/
theorem barcrestWrite_consistent (tbl : Vector ChrRow 72) (offset call : Byte)
    (hs : s.chr.Consistent) : (barcrestWrite tbl offset call s).chr.Consistent := by
  unfold barcrestWrite
  split
  · exact hs
  · split <;> exact hs

theorem raiseCharacteriserFault_consistent (hs : s.chr.Consistent) :
    (raiseCharacteriserFault s).chr.Consistent := by
  obtain ⟨es, h⟩ := raiseCharacteriserFault_spec s
  rw [h]
  exact hs

theorem execChrw_consistent {offset call : Byte} (hs : s.chr.Consistent)
    (h : execChrw offset call s = .next t) : t.chr.Consistent := by
  unfold execChrw at h
  split at h <;> obtain rfl := Host.Outcome.next.inj h
  · exact raiseCharacteriserFault_consistent hs
  · exact barcrestWrite_consistent _ offset call hs
  · exact bwbWrite_consistent _ offset call hs

theorem execChrr_consistent {offset : Byte} (hs : s.chr.Consistent)
    (h : execChrr offset s = .next t) : t.chr.Consistent := by
  unfold execChrr at h
  split at h <;> obtain rfl := Host.Outcome.next.inj h
  · exact raiseCharacteriserFault_consistent hs
  next tbl _ =>
    obtain ⟨v, hv⟩ := barcrestRead_replies s offset tbl
    exact hv ▸ hs
  · exact bwbRead_consistent _ offset hs

theorem State.BwbSound.of_eq (hs : s.BwbSound) (hchr : t.chr = s.chr) : t.BwbSound :=
  (bwbSound_iff t).2 (hchr ▸ (bwbSound_iff s).1 hs)

theorem exec_keeps_bwb {i : Instr} (hs : s.BwbSound) (h : exec i s = .next t)
    (hi : i ≠ .reset) : t.BwbSound := by
  have hu := (bwbSound_iff s).1 hs
  cases writes_of_exec h with
  | chrw => exact (bwbSound_iff _).2 (execChrw_consistent hu h)
  | chrr => exact (bwbSound_iff _).2 (execChrr_consistent hu h)
  | reset => exact absurd rfl hi
  | _ => exact hs.of_eq rfl

end bwb

/-! ## Soundness, after reset and from step to step -/

section sound

variable {s t : State}

/-- Units at their reset values are sound under any configuration whose pulse is positive. -/
theorem sound_of_units_atReset (hpos : 0 < t.cfg.tIc24) (hstrobe : t.strobe = .atReset)
    (hlamps : t.lamps = .atReset) (hleds : t.leds = .atReset) (hchr : t.chr = .atReset) :
    t.Sound where
  cells := (cellsSound_iff t).2
    ⟨hlamps ▸ within_nil, hleds ▸ within_nil, hleds ▸ within_nil, fun _ => hleds ▸ rfl⟩
  column := columnSound_of_recompute .atReset hstrobe
  timer := timerSound_of_idle hpos (hstrobe ▸ rfl) (hstrobe ▸ rfl)
  bwb := (bwbSound_iff t).2 (hchr ▸ ⟨by decide, fun _ => rfl⟩)

/-- The state load gives is sound. -/
theorem fresh_sound {c : Cfg} (hpos : 0 < c.tIc24) : (State.fresh c).Sound :=
  sound_of_units_atReset hpos rfl rfl rfl rfl

theorem exec_keeps_sound {i : Instr} (hs : s.Sound) (h : exec i s = .next t) : t.Sound := by
  by_cases hi : i = .reset
  · subst hi
    obtain rfl := Host.Outcome.next.inj h
    exact sound_of_units_atReset hs.timer.pulsePositive rfl rfl rfl rfl
  · exact ⟨exec_keeps_cells hs.cells h hi, exec_keeps_column hs.column h hi,
      exec_keeps_timer hs.timer h hi, exec_keeps_bwb hs.bwb h hi⟩

/-- The words the host has issued have no part in soundness (log 1). -/
theorem State.Sound.withStream (hs : s.Sound) (words : List OpWord) :
    State.Sound { s with stream := words } :=
  ⟨hs.cells.of_eq rfl rfl rfl rfl, hs.column.of_eq rfl, hs.timer.of_eq rfl rfl rfl rfl,
    hs.bwb.of_eq rfl⟩

theorem step_keeps_sound (hs : s.Sound) (h : step s = .next t) : t.Sound := by
  obtain hexp | rfl | ⟨i, rest, hrun⟩ := step_eq_next_cases h
  · exact exec_keeps_sound hs hexp
  · exact hs
  · exact exec_keeps_sound (hs.withStream rest) hrun

end sound

/-! ## Runs of operations -/

/-- A run keeps every reflexive and transitive relation that each of its operations keeps. -/
theorem execAll_induction {R : State → State → Prop} {allowed : Instr → Prop} (refl : ∀ s, R s s)
    (trans : ∀ {s t u}, R s t → R t u → R s u)
    (exec_rel : ∀ {i s t}, allowed i → exec i s = .next t → R s t) {ops : List Instr} {s t : State}
    (hops : ∀ i ∈ ops, allowed i) (h : execAll ops s = .next t) : R s t := by
  induction ops generalizing s with
  | nil => exact Host.Outcome.next.inj h ▸ refl s
  | cons i rest ih =>
    obtain ⟨hi, hrest⟩ := List.forall_mem_cons.1 hops
    rw [execAll] at h
    split at h
    next u hu => exact trans (exec_rel hi hu) (ih hrest h)
    · cases h
    · cases h

/-! ## The fault log (44_characteriser_barcrest.md R233; 60_exceptions.md R294) -/

/-- From `s` to `t` the log events counted go up by exactly the change of the latch. -/
def LogsWithLatch (s t : State) : Prop :=
  t.out.count (.log .characteriserFault) + s.chr.chrFaultLogged.toNat =
    s.out.count (.log .characteriserFault) + t.chr.chrFaultLogged.toNat

section log

variable {s t u : State}

/-- Events that are no log event, with the latch as it was. -/
theorem LogsWithLatch.of_emitted {es : List Event} (hes : Event.log .characteriserFault ∉ es)
    (hout : t.out = s.out ++ es) (hlatch : t.chr.chrFaultLogged = s.chr.chrFaultLogged) :
    LogsWithLatch s t := by
  rw [LogsWithLatch, hout, hlatch, List.count_append, List.count_eq_zero.2 hes, Nat.add_zero]

theorem LogsWithLatch.of_eq (hout : t.out = s.out)
    (hlatch : t.chr.chrFaultLogged = s.chr.chrFaultLogged) : LogsWithLatch s t :=
  .of_emitted (es := []) (by simp) (by simp [hout]) hlatch

theorem LogsWithLatch.trans (hst : LogsWithLatch s t) (htu : LogsWithLatch t u) :
    LogsWithLatch s u := by
  unfold LogsWithLatch at *
  omega

/-- Raising the condition logs exactly when the latch was clear. -/
theorem raiseCharacteriserFault_logs (s : State) : LogsWithLatch s (raiseCharacteriserFault s) := by
  cases h : s.chr.chrFaultLogged with
  | true =>
    rw [raiseCharacteriserFault_of_logged s h]
    exact .of_eq rfl rfl
  | false => simp [LogsWithLatch, raiseCharacteriserFault_of_unlogged s h, h]

theorem barcrestWrite_logs (tbl : Vector ChrRow 72) (offset call : Byte) (s : State) :
    LogsWithLatch s (barcrestWrite tbl offset call s) := by
  unfold barcrestWrite
  split
  · exact .of_eq rfl rfl
  · split <;> exact .of_eq rfl rfl

theorem bwbScan_logs (tables : BwbTables) (call : Byte) (s : State) :
    LogsWithLatch s (bwbScan tables call s) := by
  obtain ⟨v, r, hchr⟩ := bwbScan_chr tables call s
  obtain ⟨u, n, hs⟩ := bwbScan_writes s call tables
  exact .of_eq (by rw [hs]) (by rw [hchr])

theorem bwbWrite_logs (tables : BwbTables) (offset call : Byte) (s : State) :
    LogsWithLatch s (bwbWrite tables offset call s) := by
  unfold bwbWrite
  split
  · exact bwbScan_logs tables call { s with chr := bwbBaseAccess call s.chr }
  · exact bwbScan_logs tables call s

theorem bwbRead_logs (tables : BwbTables) (offset : Byte) (s : State) :
    LogsWithLatch s (bwbRead tables offset s) := by
  unfold bwbRead
  split
  · split
    · split <;> exact .of_eq rfl rfl
    · exact .of_eq rfl rfl
  · exact .of_eq rfl rfl

/-- CHRW logs through the raised condition alone, which the table variants never raise. -/
theorem execChrw_logs {offset call : Byte} (h : execChrw offset call s = .next t) :
    LogsWithLatch s t := by
  unfold execChrw at h
  split at h <;> obtain rfl := Host.Outcome.next.inj h
  · exact raiseCharacteriserFault_logs s
  · exact barcrestWrite_logs _ offset call s
  · exact bwbWrite_logs _ offset call s

/-- CHRR logs through the raised condition alone, which the table variants never raise. -/
theorem execChrr_logs {offset : Byte} (h : execChrr offset s = .next t) : LogsWithLatch s t := by
  unfold execChrr at h
  split at h <;> obtain rfl := Host.Outcome.next.inj h
  · exact raiseCharacteriserFault_logs s
  next tbl _ =>
    obtain ⟨v, hv⟩ := barcrestRead_replies s offset tbl
    rw [hv]
    exact .of_eq rfl rfl
  · exact bwbRead_logs _ offset s

/-- No operation but RESET clears the latch, and none logs without setting it. -/
theorem exec_logs {i : Instr} (hi : i ≠ .reset) (h : exec i s = .next t) : LogsWithLatch s t := by
  cases writes_of_exec h with
  | alphaclk l es hes => exact .of_emitted hes rfl rfl
  | tick u es hes => exact .of_emitted hes rfl rfl
  | chrw => exact execChrw_logs h
  | chrr => exact execChrr_logs h
  | reset => exact absurd rfl hi
  | _ => exact .of_eq rfl rfl

/-- The trace is only ever extended at its end (10_state.md R66). -/
theorem exec_extends_out {i : Instr} (h : exec i s = .next t) : s.out <+: t.out := by
  cases writes_of_exec h with
  | alphaclk | tick | chrw | chrr => exact List.prefix_append _ _
  | _ => exact List.prefix_rfl

/-- Along a trace that only grew, log events that follow the latch keep a set latch set. -/
theorem LogsWithLatch.latch_stays (hlog : LogsWithLatch s t) (hout : s.out <+: t.out)
    (hset : s.chr.chrFaultLogged = true) : t.chr.chrFaultLogged = true := by
  have hcount := hout.sublist.count_le (.log .characteriserFault)
  unfold LogsWithLatch at hlog
  rw [hset] at hlog
  cases hlatch : t.chr.chrFaultLogged with
  | true => rfl
  | false =>
    simp only [hlatch, Bool.toNat_true, Bool.toNat_false] at hlog
    omega

end log

/-! ## The state after load (10_state.md R68) -/

@[simp] theorem fresh_lampAt (c : Cfg) (k : Nat) : (State.fresh c).lampAt k = false := rfl
@[simp] theorem fresh_ledAt (c : Cfg) (n : Nat) : (State.fresh c).ledAt n = 0 := rfl
@[simp] theorem fresh_led2At (c : Cfg) (n : Nat) : (State.fresh c).led2At n = 0 := rfl

end Sys2Proof.Machine

namespace Sys2Proof.Claims

open Sys2Proof.Machine

/-! ## The statements -/

/-- Settles O58: each operation keeps each part of the invariant, and a step is an operation or none. -/
theorem stepKeepsSoundness : Obligations.StepKeepsSoundness := fun _ _ => step_keeps_sound

/-- Settles O30, by induction on the run: each operation keeps the log events in step with the latch and
extends the trace. -/
theorem faultLoggedOncePerReset : Obligations.FaultLoggedOncePerReset := by
  intro s t ops hops h
  have hrun : LogsWithLatch s t ∧ s.out <+: t.out :=
    execAll_induction (R := fun s t => LogsWithLatch s t ∧ s.out <+: t.out)
      (fun _ => ⟨.of_eq rfl rfl, List.prefix_rfl⟩)
      (fun hst htu => ⟨hst.1.trans htu.1, hst.2.trans htu.2⟩)
      (fun hi h => ⟨exec_logs hi h, exec_extends_out h⟩) hops h
  obtain ⟨hlog, hout⟩ := hrun
  exact ⟨hlog, hlog.latch_stays hout⟩

/-- Settles O47: of the fields named, WAIT writes the clock, and the others only extend. -/
theorem clockAndTracesOnlyGrow : Obligations.ClockAndTracesOnlyGrow := by
  intro i s t h
  cases writes_of_exec h with
  | waitAhead | waitReached => simp
  | ledw => simp [ledWrite]
  | _ => simp

/-- Settles O48: each unit is written by the cases of `Writes` that name it. -/
theorem unitOwnership : Obligations.UnitOwnership := by
  intro i s t h hi
  cases writes_of_exec h with
  | reset => exact absurd rfl hi
  | lampx d u v hv => simpa [not_imp_comm] using hv
  | setgateA | setgateB | setgateC | setinhG1 => simp [isGateOrG1Write, isGateWrite]
  | ledw => simp [ledWrite]
  | _ => simp

/-- Settles O43: the reset values of the units, and empty arrays, which read as blank everywhere. -/
theorem resetStateValues : Obligations.ResetStateValues := by
  refine ⟨rfl, fun c => ⟨State.fresh c, rfl, rfl, ?_⟩⟩
  simp [Strobe.atReset, LampUnit.atReset, LedUnit.atReset, ChrUnit.atReset, ReelUnit.atReset]

/-- Settles O59: the default configuration has a positive pulse. -/
theorem resetIsSound : Obligations.ResetIsSound := fresh_sound (by decide)

end Sys2Proof.Claims

/-! # Memory and ordering (20_memory.md): side effects of reads, and independence across units

The statements of R83 and R87. First the equations of the two baseline ports and of LEDW, then what a
CHRR can do, then the effect of a characteriser operation as a thing apart from the state it meets. -/

namespace Sys2Proof.Machine

open Sys2Proof.Claims

/-! ## Two operations in a row -/

section pair

variable {i : Instr} {s t : State}

theorem execAll_singleton (i : Instr) (s : State) : execAll [i] s = exec i s := by
  rw [execAll]
  cases exec i s <;> rfl

theorem execAll_pair_of_next (j : Instr) (h : exec i s = .next t) :
    execAll [i, j] s = exec j t := by
  rw [execAll, h]
  exact execAll_singleton j t

theorem execAll_of_refused {r : Refusal} (rest : List Instr) (h : exec i s = .refused r) :
    execAll (i :: rest) s = .refused r := by
  rw [execAll, h]

end pair

/-! ## The baseline ports (41_lamp_matrix.md R162, R163) -/

/-- The lamp unit after LAMPA at column `c`. -/
def LampUnit.writePortA (c : BitVec 3) (data : Byte) (u : LampUnit) : LampUnit :=
  if c ≠ u.lampLatchA then
    { u with lamp := u.lamp.writeBits (portABase c) data 8, lampLatchA := c }
  else u

/-- The lamp unit after LAMPB at column `c`. -/
def LampUnit.writePortB (c : BitVec 3) (data : Byte) (u : LampUnit) : LampUnit :=
  if c ≠ u.lampLatchB then
    { u with lamp := u.lamp.writeBits (portBBase c) data 8, lampLatchB := c }
  else u

theorem exec_lampa_eq (data : Byte) (s : State) :
    exec (.lampa data) s =
      .next { s with lamps := s.lamps.writePortA s.strobe.column data } := by
  simp only [exec, execLampa, LampUnit.writePortA]
  split <;> rfl

theorem exec_lampb_eq (data : Byte) (s : State) :
    exec (.lampb data) s =
      .next { s with lamps := s.lamps.writePortB s.strobe.column data } := by
  simp only [exec, execLampb, LampUnit.writePortB]
  split <;> rfl

/-- Writes to disjoint groups of lamp cells commute on a canonical array. -/
theorem writeBits_comm {v w : Nat} {m : Memory Bool} (hm : Memory.wf lampOff m) (x : BitVec v)
    (y : BitVec w) {base base' n n' : Nat} (hdisj : ∀ k, inGroup base n k → ¬ inGroup base' n' k) :
    (m.writeBits base x n).writeBits base' y n' = (m.writeBits base' y n').writeBits base x n := by
  refine eq_of_read_eq lampOff _ _ (wf_writeBits _ _ _ _ (wf_writeBits _ _ _ _ hm))
    (wf_writeBits _ _ _ _ (wf_writeBits _ _ _ _ hm)) fun k => ?_
  simp only [read_writeBits]
  by_cases hk : base ≤ k ∧ k < base + n
  · have hk' : ¬ (base' ≤ k ∧ k < base' + n') := hdisj k hk
    simp only [if_pos hk, if_neg hk']
  · simp only [if_neg hk]

/-- Port A has cells 0 to 63, port B cells 64 to 127 (20_memory.md R71). -/
theorem portA_disjoint_portB (c : BitVec 3) (k : Nat) (hk : inGroup (portABase c) 8 k) :
    ¬ inGroup (portBBase c) 8 k := by
  have hc := c.isLt
  simp only [inGroup, portABase, portBBase] at *
  omega

section ports

variable {u : LampUnit} {c : BitVec 3}

theorem writePortA_of_latched (data : Byte) (h : c = u.lampLatchA) : u.writePortA c data = u :=
  if_neg (not_not_intro h)

theorem writePortB_of_latched (data : Byte) (h : c = u.lampLatchB) : u.writePortB c data = u :=
  if_neg (not_not_intro h)

@[simp] theorem writePortA_lampLatchB (c : BitVec 3) (data : Byte) (u : LampUnit) :
    (u.writePortA c data).lampLatchB = u.lampLatchB := by
  unfold LampUnit.writePortA
  split <;> rfl

@[simp] theorem writePortB_lampLatchA (c : BitVec 3) (data : Byte) (u : LampUnit) :
    (u.writePortB c data).lampLatchA = u.lampLatchA := by
  unfold LampUnit.writePortB
  split <;> rfl

/-- The two ports have disjoint latches and disjoint cells. -/
theorem writePortA_writePortB_comm (hu : Memory.wf lampOff u.lamp) (c : BitVec 3) (a b : Byte) :
    (u.writePortA c a).writePortB c b = (u.writePortB c b).writePortA c a := by
  by_cases hA : c = u.lampLatchA
  · rw [writePortA_of_latched a hA, writePortA_of_latched a (by simpa using hA)]
  · by_cases hB : c = u.lampLatchB
    · rw [writePortB_of_latched b hB, writePortB_of_latched b (by simpa using hB)]
    · simp [LampUnit.writePortA, LampUnit.writePortB, hA, hB,
        writeBits_comm hu a b (portA_disjoint_portB c)]

end ports

/-! ## LEDW (42_led_alpha.md R191, R193) -/

theorem exec_ledw_of_no_card {s : State} (data : Byte) (h : s.cfg.ledExtender = .none) :
    exec (.ledw data) s = .next (ledWrite data s) := by
  simp [exec, execLedw, h]

theorem exec_ledw_of_card {s : State} (data : Byte) (h : s.cfg.ledExtender ≠ .none) :
    exec (.ledw data) s = .refused .ledCardUndocumented := by
  cases hk : s.cfg.ledExtender with
  | none => exact absurd hk h
  | cardA | cardB => simp [exec, execLedw, hk]

/-- LEDW commutes with an operation that only writes the lamp unit, from that unit and the sequencer
alone. -/
theorem ledw_comm_of_writes_lamps {i : Instr} {f : Strobe → LampUnit → LampUnit}
    (hi : ∀ s, exec i s = .next { s with lamps := f s.strobe s.lamps }) (data : Byte) (s : State) :
    execAll [.ledw data, i] s = execAll [i, .ledw data] s := by
  rw [execAll_pair_of_next _ (hi s)]
  by_cases hcard : s.cfg.ledExtender = .none
  · have hafter := exec_ledw_of_no_card (s := { s with lamps := f s.strobe s.lamps }) data hcard
    rw [execAll_pair_of_next _ (exec_ledw_of_no_card data hcard), hi, hafter]
    rfl
  · have hafter := exec_ledw_of_card (s := { s with lamps := f s.strobe s.lamps }) data hcard
    rw [execAll_of_refused _ (exec_ledw_of_card data hcard), hafter]

/-! ## What a CHRR can do (20_memory.md R83) -/

/-- The courses of CHRR at offset `o`: a bare reply; the counter of BwB moved on; the condition of
NONE, with its one log event at most. -/
inductive ChrRead (s : State) (o : Byte) : State → Prop
  | reply (v : Byte) : ChrRead s o (s.replyChr v)
  | advance (tables : BwbTables) (hcfg : s.cfg.chr = .bwb tables) (ho : o = 0) (v : Byte) :
      ChrRead s o (State.replyChr { s with chr := bwbAdvance s.chr } v)
  | fault (hcfg : s.cfg.chr = .none) (es : List Event)
      (hes : es = [] ∨ es = [.log .characteriserFault]) (v : Byte) :
      ChrRead s o
        { s with
          out := s.out ++ es, chr := { s.chr with chrFaultLogged := true },
          chrReplies := s.chrReplies ++ [v], chrDraws := s.chrDraws + 1 }

/-- The condition logs nothing or its one event, and the latch ends set. -/
theorem raiseCharacteriserFault_events (s : State) :
    ∃ es, (es = [] ∨ es = [.log .characteriserFault]) ∧ raiseCharacteriserFault s =
      { s with out := s.out ++ es, chr := { s.chr with chrFaultLogged := true } } := by
  cases h : s.chr.chrFaultLogged with
  | false => exact ⟨_, .inr rfl, raiseCharacteriserFault_of_unlogged s h⟩
  | true =>
    refine ⟨[], .inl rfl, ?_⟩
    rw [raiseCharacteriserFault_of_logged s h, List.append_nil, ← h]

theorem chrRead_bwbRead {s : State} {tables : BwbTables} (hcfg : s.cfg.chr = .bwb tables)
    (o : Byte) : ChrRead s o (bwbRead tables o s) := by
  unfold bwbRead
  split
  next ho =>
    split
    · split
      · exact .advance tables hcfg ho _
      · exact .reply _
    · exact .advance tables hcfg ho _
  · exact .reply _

/-- CHRR always completes, in one of its courses. -/
theorem exec_chrr_courses (o : Byte) (s : State) :
    ∃ t, exec (.chrr o) s = .next t ∧ ChrRead s o t := by
  cases hcfg : s.cfg.chr with
  | none =>
    obtain ⟨es, hes, h⟩ := raiseCharacteriserFault_events s
    exact ⟨fallbackRead s, by simp [exec, execChrr, hcfg],
      by rw [fallbackRead, h]; exact .fault hcfg es hes _⟩
  | barcrest tbl =>
    obtain ⟨v, hv⟩ := barcrestRead_replies s o tbl
    exact ⟨_, by simp [exec, execChrr, hcfg, hv], .reply v⟩
  | bwb tables => exact ⟨_, by simp [exec, execChrr, hcfg], chrRead_bwbRead hcfg o⟩

/-- A read of the input scanner draws and replies, and does nothing else (43_input_scanner.md R206). -/
theorem exec_inputRead {i : Instr} (hi : i = .inread ∨ i = .aux1r ∨ i = .aux2r) (s : State) :
    ∃ v, exec i s = .next (s.drawnInput.replyInput v) := by
  obtain rfl | rfl | rfl := hi <;> exact ⟨_, rfl⟩

/-! ## The effect of a characteriser operation (20_memory.md R87)

What a characteriser operation does depends on the configuration, its unit and its draw count alone,
so the same effect results wherever in a sequence it runs. -/

/-- What a characteriser operation emits, the unit it leaves, what it replies and how often it draws. -/
structure ChrEffect where
  events : List Event
  unit : ChrUnit
  replies : List Byte
  draws : Nat

/-- The state with the effect taken. -/
def ChrEffect.apply (e : ChrEffect) (s : State) : State :=
  { s with
    out := s.out ++ e.events, chr := e.unit, chrReplies := s.chrReplies ++ e.replies,
    chrDraws := s.chrDraws + e.draws }

/-- One effect after another. -/
def ChrEffect.andThen (e e' : ChrEffect) : ChrEffect :=
  { events := e.events ++ e'.events, unit := e'.unit, replies := e.replies ++ e'.replies,
    draws := e.draws + e'.draws }

theorem andThen_apply (e e' : ChrEffect) (s : State) :
    (e.andThen e').apply s = e'.apply (e.apply s) := by
  simp [ChrEffect.apply, ChrEffect.andThen, Nat.add_assoc]

/-- Two states look alike to the characteriser: all it reads is equal. -/
structure SameChrInputs (s s' : State) : Prop where
  cfg : s'.cfg = s.cfg
  chr : s'.chr = s.chr
  chrDraws : s'.chrDraws = s.chrDraws

theorem SameChrInputs.refl (s : State) : SameChrInputs s s := ⟨rfl, rfl, rfl⟩

theorem SameChrInputs.apply {s s' : State} (h : SameChrInputs s s') (e : ChrEffect) :
    SameChrInputs (e.apply s) (e.apply s') :=
  ⟨h.cfg, rfl, congrArg (· + e.draws) h.chrDraws⟩

/-- At every state that looks like `s` to the characteriser, `f` has one and the same effect. -/
def HasChrEffectAt (f : State → State) (s : State) : Prop :=
  ∃ e : ChrEffect, ∀ s', SameChrInputs s s' → f s' = e.apply s'

section effects

variable {s : State}

theorem HasChrEffectAt.comp {f g : State → State} (hf : HasChrEffectAt f s)
    (hg : ∀ t, HasChrEffectAt g t) : HasChrEffectAt (fun s' => g (f s')) s := by
  obtain ⟨e, he⟩ := hf
  obtain ⟨e', he'⟩ := hg (e.apply s)
  refine ⟨e.andThen e', fun s' h => ?_⟩
  calc g (f s') = g (e.apply s') := by rw [he s' h]
    _ = e'.apply (e.apply s') := he' _ (h.apply e)
    _ = (e.andThen e').apply s' := (andThen_apply e e' s').symm

/-- `f` has to be known only at the states that look like `s`. -/
theorem HasChrEffectAt.congr {f g : State → State} (hf : HasChrEffectAt f s)
    (hgf : ∀ s', SameChrInputs s s' → g s' = f s') : HasChrEffectAt g s := by
  obtain ⟨e, he⟩ := hf
  exact ⟨e, fun s' h => (hgf s' h).trans (he s' h)⟩

theorem hasChrEffectAt_id : HasChrEffectAt (fun s' => s') s :=
  ⟨⟨[], s.chr, [], 0⟩, fun s' h => by simp [ChrEffect.apply, ← h.chr]⟩

theorem hasChrEffectAt_update (g : ChrUnit → ChrUnit) :
    HasChrEffectAt (fun s' => { s' with chr := g s'.chr }) s :=
  ⟨⟨[], g s.chr, [], 0⟩, fun s' h => by simp [ChrEffect.apply, h.chr]⟩

theorem hasChrEffectAt_reply (v : ChrUnit → Byte) :
    HasChrEffectAt (fun s' => s'.replyChr (v s'.chr)) s :=
  ⟨⟨[], s.chr, [v s.chr], 0⟩, fun s' h => by simp [ChrEffect.apply, State.replyChr, ← h.chr]⟩

theorem hasChrEffectAt_raise : HasChrEffectAt raiseCharacteriserFault s := by
  cases hlog : s.chr.chrFaultLogged with
  | true =>
    refine ⟨⟨[], s.chr, [], 0⟩, fun s' h => ?_⟩
    rw [raiseCharacteriserFault_of_logged s' (h.chr ▸ hlog)]
    simp [ChrEffect.apply, ← h.chr]
  | false =>
    refine ⟨⟨[.log .characteriserFault], { s.chr with chrFaultLogged := true }, [], 0⟩,
      fun s' h => ?_⟩
    rw [raiseCharacteriserFault_of_unlogged s' (h.chr ▸ hlog)]
    simp [ChrEffect.apply, h.chr]

/-- The fallback's byte is drawn before the condition is raised (log 8). -/
theorem hasChrEffectAt_fallbackRead : HasChrEffectAt fallbackRead s := by
  obtain ⟨e, he⟩ := hasChrEffectAt_raise (s := s)
  refine ⟨e.andThen ⟨[], e.unit,
    [Config.programMemory s.chrDraws (Config.cpuIndexRegister s.chrDraws)], 1⟩, fun s' h => ?_⟩
  rw [andThen_apply, fallbackRead, he s' h, h.chrDraws]
  simp [ChrEffect.apply, State.replyChr, State.drawnChr]

theorem hasChrEffectAt_barcrestWrite (tbl : Vector ChrRow 72) (offset call : Byte) :
    HasChrEffectAt (barcrestWrite tbl offset call) s := by
  unfold barcrestWrite
  split
  · exact hasChrEffectAt_update _
  · split
    · exact hasChrEffectAt_update _
    · exact hasChrEffectAt_id

theorem hasChrEffectAt_barcrestRead (tbl : Vector ChrRow 72) (offset : Byte) :
    HasChrEffectAt (barcrestRead tbl offset) s := by
  unfold barcrestRead
  split
  · exact hasChrEffectAt_reply fun u => mainResponse tbl u.currentColumn
  · split
    · exact hasChrEffectAt_reply fun u => lampResponse tbl u.lampColumn
    · exact hasChrEffectAt_reply fun _ => 0

/-- The return index is read before the value is written, and the byte past the end is the next draw
(45_characteriser_bwb.md R244, R245). -/
theorem hasChrEffectAt_bwbRespond (tables : BwbTables) (r : ChrUnit → Nat) :
    HasChrEffectAt (fun s' => bwbRespond tables (r s'.chr) s') s := by
  by_cases hr : r s.chr < 5
  · refine ⟨⟨[], { s.chr with chrValue := tables.commonResp[r s.chr], bwbReturn := r s.chr + 1 },
      [], 0⟩, fun s' h => ?_⟩
    simp [bwbRespond, ChrEffect.apply, h.chr, hr]
  · refine ⟨⟨[], { s.chr with
      chrValue := Config.bwbPastEnd s.chrDraws, bwbReturn := r s.chr + 1 }, [], 1⟩, fun s' h => ?_⟩
    simp [bwbRespond, ChrEffect.apply, State.drawnChr, h.chr, h.chrDraws, hr]

theorem hasChrEffectAt_bwbNoiseCall : HasChrEffectAt bwbNoiseCall s :=
  ⟨⟨[], { s.chr with chrValue := Config.bwbNoise s.chrDraws }, [], 1⟩, fun s' h => by
    simp [bwbNoiseCall, ChrEffect.apply, State.drawnChr, h.chr, h.chrDraws]⟩

theorem hasChrEffectAt_bwbScan (tables : BwbTables) (call : Byte) :
    HasChrEffectAt (bwbScan tables call) s := by
  unfold bwbScan
  cases commonCallIndex tables call with
  | none => exact hasChrEffectAt_bwbNoiseCall
  | some x => exact hasChrEffectAt_bwbRespond tables fun u => if x = 0 then 0 else u.bwbReturn

theorem hasChrEffectAt_bwbWrite (tables : BwbTables) (offset call : Byte) :
    HasChrEffectAt (bwbWrite tables offset call) s := by
  unfold bwbWrite
  split
  · exact (hasChrEffectAt_update _).comp fun _ => hasChrEffectAt_bwbScan tables call
  · exact hasChrEffectAt_bwbScan tables call

/-- A read at the base offset gives its byte from the unit and the switch, and moves the unit on
(45_characteriser_bwb.md R248 to R251). -/
theorem hasChrEffectAt_bwbRead (tables : BwbTables) (offset : Byte) :
    HasChrEffectAt (bwbRead tables offset) s := by
  have reply (v : ChrUnit → Byte) := hasChrEffectAt_reply (s := s) v
  have advance (v : ChrUnit → Byte) :=
    (hasChrEffectAt_update (s := s) bwbAdvance).comp fun _ => hasChrEffectAt_reply v
  by_cases ho : offset = 0
  · cases hv : checkpointResponse tables s.chr.chrCounter with
    | some v =>
      cases hadv : s.cfg.bwbCheckpointAdvances with
      | true =>
        exact (advance fun _ => v).congr fun s' h => by simp [bwbRead, ho, h.chr, h.cfg, hv, hadv]
      | false =>
        exact (reply fun _ => v).congr fun s' h => by simp [bwbRead, ho, h.chr, h.cfg, hv, hadv]
    | none =>
      exact (advance ChrUnit.chrValue).congr fun s' h => by
        simp [bwbRead, ho, h.chr, hv, bwbAdvance]
  · exact (reply ChrUnit.chrValue).congr fun s' _ => if_neg ho

/-- A characteriser operation completes with one effect at all states it cannot tell from `s`. -/
theorem exec_chrOp_effect {c : Instr} (hc : isChrOp c = true) (s : State) :
    ∃ e : ChrEffect, ∀ s', SameChrInputs s s' → exec c s' = .next (e.apply s') := by
  have of_effect {f : State → State} (hf : HasChrEffectAt f s)
      (hexec : ∀ s', s'.cfg = s.cfg → exec c s' = .next (f s')) :
      ∃ e : ChrEffect, ∀ s', SameChrInputs s s' → exec c s' = .next (e.apply s') := by
    obtain ⟨e, he⟩ := hf
    exact ⟨e, fun s' h => by rw [hexec s' h.cfg, he s' h]⟩
  cases c with
  | chrw offset call =>
    cases hchr : s.cfg.chr with
    | none =>
      exact of_effect hasChrEffectAt_raise fun s' h => by
        simp [exec, execChrw, fallbackWrite, h, hchr]
    | barcrest tbl =>
      exact of_effect (hasChrEffectAt_barcrestWrite tbl offset call) fun s' h => by
        simp [exec, execChrw, h, hchr]
    | bwb tables =>
      exact of_effect (hasChrEffectAt_bwbWrite tables offset call) fun s' h => by
        simp [exec, execChrw, h, hchr]
  | chrr offset =>
    cases hchr : s.cfg.chr with
    | none =>
      exact of_effect hasChrEffectAt_fallbackRead fun s' h => by simp [exec, execChrr, h, hchr]
    | barcrest tbl =>
      exact of_effect (hasChrEffectAt_barcrestRead tbl offset) fun s' h => by
        simp [exec, execChrr, h, hchr]
    | bwb tables =>
      exact of_effect (hasChrEffectAt_bwbRead tables offset) fun s' h => by
        simp [exec, execChrr, h, hchr]
  | _ => cases hc

end effects

/-! ## The other units beside the characteriser (20_memory.md R87) -/

/-- The two states differ in the order of their events at most. -/
def EqUpToEventOrder (u t : State) : Prop := ∃ out, u = { t with out := out } ∧ out.Perm t.out

theorem EqUpToEventOrder.refl (s : State) : EqUpToEventOrder s s := ⟨s.out, rfl, .refl _⟩

section others

variable {s t : State} (e : ChrEffect)

/-- Events emitted before the effect or after it. -/
theorem apply_emit_eqUpToEventOrder (s : State) (es : List Event) :
    EqUpToEventOrder (e.apply (s.emit es)) ((e.apply s).emit es) := by
  refine ⟨s.out ++ es ++ e.events, rfl, ?_⟩
  simpa [ChrEffect.apply, List.append_assoc] using
    (List.perm_append_comm (l₁ := es) (l₂ := e.events)).append_left s.out

theorem largeCardLampsAndLed_apply (data : Byte) (s : State) :
    largeCardLampsAndLed data (e.apply s) = e.apply (largeCardLampsAndLed data s) := by
  simp only [largeCardLampsAndLed]
  rw [apply_ite e.apply]
  rfl

theorem exec_lampx_apply {data : Byte} (h : exec (.lampx data) (e.apply s) = .next t) :
    ∃ u, exec (.lampx data) s = .next u ∧ e.apply u = t := by
  have hcfg : (e.apply s).cfg = s.cfg := rfl
  simp only [exec, execLampx, hcfg] at h ⊢
  split at h <;> obtain rfl := Host.Outcome.next.inj h
  · exact ⟨s, rfl, rfl⟩
  · exact ⟨_, rfl, rfl⟩
  · exact ⟨_, rfl, rfl⟩
  · exact ⟨_, rfl, (largeCardLampsAndLed_apply e data s).symm⟩
  · exact ⟨_, rfl, rfl⟩

/-- What ALPHACLK sends: the data level on a rising edge (42_led_alpha.md R195). -/
def alphaEvents (level : Bool) (u : LedUnit) : List Event :=
  if risingEdge u.alphaClk level then [.alphaBit u.alphaDat] else []

theorem exec_alphaclk_eq (level : Bool) (s : State) :
    exec (.alphaclk level) s = .next
      (State.emit { s with leds := { s.leds with alphaClk := level } }
        (alphaEvents level s.leds)) := by
  simp only [exec, execAlphaclk, alphaEvents]
  split <;> simp [State.emit]

theorem exec_tick_of_table {meters : Byte} {steppers : List Event} {flutter : Bool}
    (h : modeUpdate s.cfg s.reel.flutter s.reel.mmtrData = some (meters, steppers, flutter)) :
    exec .tick s = .next (State.emit
      { s with reel := { s.reel with signal50Hz := !s.reel.signal50Hz, flutter := flutter } }
      (.mainsLine (!s.reel.signal50Hz) :: steppers ++ meterPulses meters)) := by
  simp [exec, execTick, h]

theorem exec_tick_of_no_table (h : modeUpdate s.cfg s.reel.flutter s.reel.mmtrData = none) :
    exec .tick s = .refused .reelModeUndocumented := by
  simp [exec, execTick, h]

/-- No strobe, lamp, LED, input or meter operation writes what the characteriser reads. -/
theorem exec_keeps_chrInputs {i : Instr} (hi : isStrobeLampLedInputOrMeterOp i = true)
    (h : exec i s = .next t) : SameChrInputs s t := by
  cases writes_of_exec h with
  | chrw | chrr | reset | waitAhead | waitReached | ic24exp => cases hi
  | _ => exact ⟨rfl, rfl, rfl⟩

/-- None of them reads what the characteriser writes: each runs the same with a characteriser's effect
before it, and the effect may be taken after it instead. -/
theorem exec_apply_comm {i : Instr} (hi : isStrobeLampLedInputOrMeterOp i = true)
    (h : exec i (e.apply s) = .next t) :
    ∃ u, exec i s = .next u ∧ EqUpToEventOrder (e.apply u) t := by
  cases i with
  | setgateA | setgateB | setgateC | setinhG1 | setinhG2A | setinhG2B | alphadat
  | inread | aux1r | aux2r | meterw | triacw =>
    obtain rfl := Host.Outcome.next.inj h
    exact ⟨_, rfl, .refl _⟩
  | lampa data =>
    obtain rfl := Host.Outcome.next.inj ((exec_lampa_eq data _).symm.trans h)
    exact ⟨_, exec_lampa_eq data s, .refl _⟩
  | lampb data =>
    obtain rfl := Host.Outcome.next.inj ((exec_lampb_eq data _).symm.trans h)
    exact ⟨_, exec_lampb_eq data s, .refl _⟩
  | lampx data =>
    obtain ⟨u, hu, rfl⟩ := exec_lampx_apply e h
    exact ⟨u, hu, .refl _⟩
  | ledw data =>
    by_cases hcard : s.cfg.ledExtender = .none
    · obtain rfl :=
        Host.Outcome.next.inj ((exec_ledw_of_no_card (s := e.apply s) data hcard).symm.trans h)
      exact ⟨_, exec_ledw_of_no_card data hcard, .refl _⟩
    · rw [exec_ledw_of_card (s := e.apply s) data hcard] at h
      cases h
  | alphaclk level =>
    obtain rfl := Host.Outcome.next.inj ((exec_alphaclk_eq level _).symm.trans h)
    exact ⟨_, exec_alphaclk_eq level s, apply_emit_eqUpToEventOrder e _ _⟩
  | tick =>
    cases hm : modeUpdate s.cfg s.reel.flutter s.reel.mmtrData with
    | none =>
      rw [exec_tick_of_no_table (s := e.apply s) hm] at h
      cases h
    | some r =>
      obtain ⟨meters, steppers, flutter⟩ := r
      obtain rfl := Host.Outcome.next.inj ((exec_tick_of_table (s := e.apply s) hm).symm.trans h)
      exact ⟨_, exec_tick_of_table hm, apply_emit_eqUpToEventOrder e _ _⟩
  | chrw | chrr | reset | wait | ic24exp => cases hi

end others

end Sys2Proof.Machine

namespace Sys2Proof.Claims

open Sys2Proof.Machine

/-! ## The statements -/

/-- Settles O11: the two ports write disjoint parts of the lamp unit, and LEDW writes another unit. -/
theorem baselinePortsCommute : Obligations.BaselinePortsCommute := by
  refine ⟨fun a b s hform => ?_, fun d a b s => ?_⟩
  · refine ⟨{ s with
      lamps := (s.lamps.writePortA s.strobe.column a).writePortB s.strobe.column b }, ?_, ?_⟩
    · rw [execAll_pair_of_next _ (exec_lampa_eq a s), exec_lampb_eq]
    · rw [execAll_pair_of_next _ (exec_lampb_eq b s), exec_lampa_eq,
        writePortA_writePortB_comm hform]
  · exact ⟨ledw_comm_of_writes_lamps (f := fun u => .writePortA u.column a) (exec_lampa_eq a) d s,
      ledw_comm_of_writes_lamps (f := fun u => .writePortB u.column b) (exec_lampb_eq b) d s⟩

/-- Settles O22, by the courses of CHRR; the reads of the input scanner write no unit at all. -/
theorem readsWithSideEffects : Obligations.ReadsWithSideEffects := by
  intro s i hi
  by_cases hchr : ∃ o, i = .chrr o
  · obtain ⟨o, rfl⟩ := hchr
    obtain ⟨t, ht, hcourse⟩ := exec_chrr_courses o s
    refine ⟨t, ht, ?_⟩
    cases hcourse with
    | reply v => simp
    | advance tables hcfg ho v => simp [hcfg, ho, bwbAdvance]
    | fault hcfg es hes v => obtain rfl | rfl := hes <;> simp [hcfg]
  · obtain ⟨v, hv⟩ := exec_inputRead (by tauto : i = .inread ∨ i = .aux1r ∨ i = .aux2r) s
    refine ⟨_, hv, ?_⟩
    have hne : ∀ o, i ≠ .chrr o := not_exists.1 hchr
    simp [hne]

/-- Settles O49: the characteriser operation has one effect in either place, and the other operation
neither reads nor writes what that effect touches. -/
theorem characteriserIndependentOfOtherUnits :
    Obligations.CharacteriserIndependentOfOtherUnits := by
  intro c i s t hc hi h
  obtain ⟨e, he⟩ := exec_chrOp_effect hc s
  rw [execAll_pair_of_next _ (he s (.refl s))] at h
  obtain ⟨u, hu, out, heq, hperm⟩ := exec_apply_comm e hi h
  refine ⟨e.apply u, ?_, ?_⟩
  · rw [execAll_pair_of_next _ hu, he u (exec_keeps_chrInputs hi hu)]
  · rw [heq]
    exact ⟨rfl, rfl, rfl, rfl, rfl, rfl, rfl, hperm, rfl, rfl, rfl, rfl, rfl⟩

end Sys2Proof.Claims

/-! # Words (30_encoding.md): the decoder and the encoder are inverse, and the operation map

`decode_encode` reads an operation's word back. Here the other direction: every word is packed of its
four fields, and a row accepts exactly the words packed of its `op`, its `sel` and its operand. -/

namespace Sys2Proof

/-! ## Every word is packed of its fields (30_encoding.md R100) -/

theorem exists_eq_packWord (w : OpWord) : ∃ op sel off dat, w = packWord op sel off dat := by
  refine ⟨w.extractLsb' 20 4, w.extractLsb' 16 4, offField w, datField w, ?_⟩
  refine BitVec.eq_of_getLsbD_eq fun i hi => ?_
  simp only [getLsbD_packWord, offField, datField, BitVec.getLsbD_extractLsb']
  grind

theorem packWord_inj {op sel op' sel' : BitVec 4} {off dat off' dat' : Byte} :
    packWord op sel off dat = packWord op' sel' off' dat' ↔
      op = op' ∧ sel = sel' ∧ off = off' ∧ dat = dat' := by
  constructor
  · intro h
    have hop := congrArg opField h
    have hsel := congrArg selField h
    have hoff := congrArg offField h
    have hdat := congrArg datField h
    simp only [opField_packWord, selField_packWord, offField_packWord, datField_packWord]
      at hop hsel hoff hdat
    exact ⟨BitVec.eq_of_toNat_eq hop, BitVec.eq_of_toNat_eq hsel, hoff, hdat⟩
  · rintro ⟨rfl, rfl, rfl, rfl⟩
    rfl

theorem append_eq_zero {m n : Nat} {x : BitVec m} {y : BitVec n} (h : x ++ y = 0) :
    x = 0 ∧ y = 0 := by
  constructor
  · simpa [BitVec.extractLsb'_append_eq_left] using congrArg (BitVec.extractLsb' n m) h
  · simpa [BitVec.extractLsb'_append_eq_right] using congrArg (BitVec.extractLsb' 0 n) h

/-! ## What a row accepts (30_encoding.md R101, R102, R111) -/

/-- A byte with no bit above bit 0 is the byte of a level (30_encoding.md R101). -/
theorem exists_levelByte : ∀ dat : Byte, dat.extractLsb' 1 7 = 0 → ∃ l, dat = levelByte l := by
  decide

/-- The bits a level row fixes to zero are all of `off` and the upper seven of `dat`. -/
theorem extractLsb'_one_packWord (op sel : BitVec 4) (off dat : Byte) :
    (packWord op sel off dat).extractLsb' 1 15 = off ++ dat.extractLsb' 1 7 := by
  refine BitVec.eq_of_getLsbD_eq fun i hi => ?_
  simp only [BitVec.getLsbD_append, BitVec.getLsbD_extractLsb', getLsbD_packWord]
  grind

/-- The fields the decoder has tested are those of the word. -/
theorem packWord_of_fields {op sel : BitVec 4} {n m : Nat} (hop : op.toNat = n)
    (hsel : sel.toNat = m) (off dat : Byte) :
    packWord (.ofNat 4 n) (.ofNat 4 m) off dat = packWord op sel off dat := by
  rw [← hop, ← hsel, BitVec.ofNat_toNat, BitVec.ofNat_toNat, BitVec.setWidth_eq,
    BitVec.setWidth_eq]

/-! One lemma per operand shape: what a row accepts is the word of the operation it answers. `hop` and
`hsel` are what the decoder has tested when it reaches the row. -/

section rows

variable {op sel : BitVec 4} {off dat : Byte} {n m : Nat} {i : Instr}

theorem encode_of_levelRow {build : Bool → Instr} (hop : op.toNat = n) (hsel : sel.toNat = m)
    (h : levelRow (packWord op sel off dat) build = .ok i)
    (hbuild : ∀ l, encode (build l) = packWord (.ofNat 4 n) (.ofNat 4 m) 0 (levelByte l)) :
    encode i = packWord op sel off dat := by
  by_cases hzero : (packWord op sel off dat).extractLsb' 1 15 = 0
  · rw [extractLsb'_one_packWord] at hzero
    obtain ⟨rfl, hhigh⟩ := append_eq_zero hzero
    obtain ⟨l, rfl⟩ := exists_levelByte dat hhigh
    obtain rfl := Except.ok.inj ((levelRow_packWord op sel build l).symm.trans h)
    rw [hbuild, packWord_of_fields hop hsel]
  · rw [levelRow, if_neg hzero] at h
    cases h

theorem encode_of_dataRow {build : Byte → Instr} (hop : op.toNat = n) (hsel : sel.toNat = m)
    (h : dataRow (packWord op sel off dat) build = .ok i)
    (hbuild : ∀ d, encode (build d) = packWord (.ofNat 4 n) (.ofNat 4 m) 0 d) :
    encode i = packWord op sel off dat := by
  rw [dataRow, offField_packWord, datField_packWord] at h
  split at h
  next hoff =>
    obtain rfl := Except.ok.inj h
    rw [hbuild, packWord_of_fields hop hsel, hoff]
  next => cases h

theorem encode_of_plainRow {j : Instr} (hop : op.toNat = n) (hsel : sel.toNat = m)
    (h : plainRow (packWord op sel off dat) j = .ok i)
    (hj : encode j = packWord (.ofNat 4 n) (.ofNat 4 m) 0 0) :
    encode i = packWord op sel off dat := by
  rw [plainRow, countField_packWord] at h
  split at h
  next hzero =>
    obtain ⟨rfl, rfl⟩ := append_eq_zero hzero
    obtain rfl := Except.ok.inj h
    rw [hj, packWord_of_fields hop hsel]
  next => cases h

theorem encode_of_offsetRow {build : Byte → Instr} (hop : op.toNat = n) (hsel : sel.toNat = m)
    (h : offsetRow (packWord op sel off dat) build = .ok i)
    (hbuild : ∀ o, encode (build o) = packWord (.ofNat 4 n) (.ofNat 4 m) o 0) :
    encode i = packWord op sel off dat := by
  rw [offsetRow, datField_packWord, offField_packWord] at h
  split at h
  next hdat =>
    obtain rfl := Except.ok.inj h
    rw [hbuild, packWord_of_fields hop hsel, hdat]
  next => cases h

/-- The row of CHRW takes every `off` and `dat`. -/
theorem encode_chrw_of_fields (hop : op.toNat = 6) (hsel : sel.toNat = 0) :
    encode (.chrw off dat) = packWord op sel off dat :=
  packWord_of_fields hop hsel off dat

/-- The row of WAIT takes every `off` and `dat`: they are the count. -/
theorem encode_wait_of_fields (hop : op.toNat = 14) (hsel : sel.toNat = 1) :
    encode (.wait (off ++ dat)) = packWord op sel off dat := by
  rw [encode, BitVec.extractLsb'_append_eq_left, BitVec.extractLsb'_append_eq_right]
  exact packWord_of_fields hop hsel off dat

end rows

/-- A word that decodes is the word of its operation, row by row. -/
theorem encode_of_decode {w : OpWord} {i : Instr} (h : decode w = .ok i) : encode i = w := by
  obtain ⟨op, sel, off, dat, rfl⟩ := exists_eq_packWord w
  simp only [decode, opField_packWord, selField_packWord, offField_packWord, datField_packWord,
    countField_packWord] at h
  split at h
  next hop =>
    split at h
    next hsel => exact encode_of_levelRow hop hsel h fun _ => rfl
    next hsel => exact encode_of_levelRow hop hsel h fun _ => rfl
    next hsel => exact encode_of_levelRow hop hsel h fun _ => rfl
    next => cases h
  next hop =>
    split at h
    next hsel => exact encode_of_levelRow hop hsel h fun _ => rfl
    next hsel => exact encode_of_levelRow hop hsel h fun _ => rfl
    next hsel => exact encode_of_levelRow hop hsel h fun _ => rfl
    next => cases h
  next hop =>
    split at h
    next hsel => exact encode_of_dataRow hop hsel h fun _ => rfl
    next hsel => exact encode_of_dataRow hop hsel h fun _ => rfl
    next hsel => exact encode_of_dataRow hop hsel h fun _ => rfl
    next => cases h
  next hop =>
    split at h
    next hsel => exact encode_of_dataRow hop hsel h fun _ => rfl
    next hsel => exact encode_of_levelRow hop hsel h fun _ => rfl
    next hsel => exact encode_of_levelRow hop hsel h fun _ => rfl
    next => cases h
  next hop =>
    split at h
    next hsel => exact encode_of_plainRow hop hsel h rfl
    next hsel => exact encode_of_plainRow hop hsel h rfl
    next hsel => exact encode_of_plainRow hop hsel h rfl
    next => cases h
  next hop =>
    split at h
    next hsel => exact Except.ok.inj h ▸ encode_chrw_of_fields hop hsel
    next hsel => exact encode_of_offsetRow hop hsel h fun _ => rfl
    next => cases h
  next hop =>
    split at h
    next hsel => exact encode_of_dataRow hop hsel h fun _ => rfl
    next hsel => exact encode_of_dataRow hop hsel h fun _ => rfl
    next hsel => exact encode_of_plainRow hop hsel h rfl
    next => cases h
  next hop =>
    split at h
    next hsel => exact encode_of_plainRow hop hsel h rfl
    next hsel => exact Except.ok.inj h ▸ encode_wait_of_fields hop hsel
    next => cases h
  next hop =>
    split at h
    next hsel => exact encode_of_plainRow hop hsel h rfl
    next => cases h
  next => cases h

/-- The decoder and the encoder are inverse to each other. -/
theorem decode_eq_ok_iff {w : OpWord} {i : Instr} : decode w = .ok i ↔ encode i = w :=
  ⟨encode_of_decode, fun h => h ▸ decode_encode i⟩

/-! ## The operation map (30_encoding.md R102) -/

/-- An operation's word agrees with its row: `Laws.OperationMapRow` over all operations. -/
theorem encode_and_rowMask (i : Instr) : encode i &&& rowMask i = rowMatch i := by
  cases i with
  | setgateA l => exact Laws.OperationMapRow.setgateA l
  | setgateB l => exact Laws.OperationMapRow.setgateB l
  | setgateC l => exact Laws.OperationMapRow.setgateC l
  | setinhG1 l => exact Laws.OperationMapRow.setinhG1 l
  | setinhG2A l => exact Laws.OperationMapRow.setinhG2A l
  | setinhG2B l => exact Laws.OperationMapRow.setinhG2B l
  | lampa d => exact Laws.OperationMapRow.lampa d
  | lampb d => exact Laws.OperationMapRow.lampb d
  | lampx d => exact Laws.OperationMapRow.lampx d
  | ledw d => exact Laws.OperationMapRow.ledw d
  | alphaclk l => exact Laws.OperationMapRow.alphaclk l
  | alphadat l => exact Laws.OperationMapRow.alphadat l
  | chrw o c => exact Laws.OperationMapRow.chrw o c
  | chrr o => exact Laws.OperationMapRow.chrr o
  | meterw d => exact Laws.OperationMapRow.meterw d
  | triacw d => exact Laws.OperationMapRow.triacw d
  | wait n => exact Laws.OperationMapRow.wait n
  | inread | aux1r | aux2r | tick | reset | ic24exp => rfl

section matching

variable {w : OpWord} (op sel : BitVec 4)

/-- A word under a row's mask fixes `op` and `sel`, and leaves of `off` and `dat` what the mask does. -/
theorem exists_eq_packWord_of_and {moff mdat off dat : Byte}
    (h : w &&& packWord 15 15 moff mdat = packWord op sel off dat) :
    ∃ o d, o &&& moff = off ∧ d &&& mdat = dat ∧ w = packWord op sel o d := by
  obtain ⟨op', sel', o, d, rfl⟩ := exists_eq_packWord w
  rw [packWord_and, packWord_inj] at h
  obtain ⟨hop, hsel, hoff, hdat⟩ := h
  obtain rfl : op' = op := (BitVec.and_allOnes (w := 4)).symm.trans hop
  obtain rfl : sel' = sel := (BitVec.and_allOnes (w := 4)).symm.trans hsel
  exact ⟨o, d, hoff, hdat, rfl⟩

theorem exists_level_of_and (h : w &&& packWord 15 15 0xFF 0xFE = packWord op sel 0 0) :
    ∃ l, packWord op sel 0 (levelByte l) = w := by
  obtain ⟨o, d, hoff, hdat, rfl⟩ := exists_eq_packWord_of_and op sel h
  obtain rfl : o = 0 := (BitVec.and_allOnes (w := 8)).symm.trans hoff
  have hhigh : d.extractLsb' 1 7 = 0 := by
    calc d.extractLsb' 1 7
        = (d &&& 0xFE).extractLsb' 1 7 := by
          rw [BitVec.extractLsb'_and]
          exact BitVec.and_allOnes.symm
      _ = 0 := by rw [hdat]; rfl
  obtain ⟨l, rfl⟩ := exists_levelByte d hhigh
  exact ⟨l, rfl⟩

theorem exists_data_of_and (h : w &&& packWord 15 15 0xFF 0 = packWord op sel 0 0) :
    ∃ d, packWord op sel 0 d = w := by
  obtain ⟨o, d, hoff, -, rfl⟩ := exists_eq_packWord_of_and op sel h
  obtain rfl : o = 0 := (BitVec.and_allOnes (w := 8)).symm.trans hoff
  exact ⟨d, rfl⟩

theorem exists_offset_of_and (h : w &&& packWord 15 15 0 0xFF = packWord op sel 0 0) :
    ∃ o, packWord op sel o 0 = w := by
  obtain ⟨o, d, -, hdat, rfl⟩ := exists_eq_packWord_of_and op sel h
  obtain rfl : d = 0 := (BitVec.and_allOnes (w := 8)).symm.trans hdat
  exact ⟨o, rfl⟩

theorem exists_bytes_of_and (h : w &&& packWord 15 15 0 0 = packWord op sel 0 0) :
    ∃ o d, packWord op sel o d = w := by
  obtain ⟨o, d, -, -, rfl⟩ := exists_eq_packWord_of_and op sel h
  exact ⟨o, d, rfl⟩

end matching

/-- A word that agrees with a row is the word of an operation of that row, its operands read from the
word. -/
theorem exists_encode_eq_of_and_rowMask {w : OpWord} {j : Instr}
    (h : w &&& rowMask j = rowMatch j) :
    ∃ i, encode i = w ∧ rowMatch i = rowMatch j ∧ rowMask i = rowMask j := by
  cases j with
  | setgateA => obtain ⟨l, hl⟩ := exists_level_of_and 1 0 h; exact ⟨.setgateA l, hl, rfl, rfl⟩
  | setgateB => obtain ⟨l, hl⟩ := exists_level_of_and 1 1 h; exact ⟨.setgateB l, hl, rfl, rfl⟩
  | setgateC => obtain ⟨l, hl⟩ := exists_level_of_and 1 2 h; exact ⟨.setgateC l, hl, rfl, rfl⟩
  | setinhG1 => obtain ⟨l, hl⟩ := exists_level_of_and 2 0 h; exact ⟨.setinhG1 l, hl, rfl, rfl⟩
  | setinhG2A => obtain ⟨l, hl⟩ := exists_level_of_and 2 1 h; exact ⟨.setinhG2A l, hl, rfl, rfl⟩
  | setinhG2B => obtain ⟨l, hl⟩ := exists_level_of_and 2 2 h; exact ⟨.setinhG2B l, hl, rfl, rfl⟩
  | lampa => obtain ⟨d, hd⟩ := exists_data_of_and 3 0 h; exact ⟨.lampa d, hd, rfl, rfl⟩
  | lampb => obtain ⟨d, hd⟩ := exists_data_of_and 3 1 h; exact ⟨.lampb d, hd, rfl, rfl⟩
  | lampx => obtain ⟨d, hd⟩ := exists_data_of_and 3 2 h; exact ⟨.lampx d, hd, rfl, rfl⟩
  | ledw => obtain ⟨d, hd⟩ := exists_data_of_and 4 0 h; exact ⟨.ledw d, hd, rfl, rfl⟩
  | alphaclk => obtain ⟨l, hl⟩ := exists_level_of_and 4 1 h; exact ⟨.alphaclk l, hl, rfl, rfl⟩
  | alphadat => obtain ⟨l, hl⟩ := exists_level_of_and 4 2 h; exact ⟨.alphadat l, hl, rfl, rfl⟩
  | chrw => obtain ⟨o, d, hw⟩ := exists_bytes_of_and 6 0 h; exact ⟨.chrw o d, hw, rfl, rfl⟩
  | chrr => obtain ⟨o, ho⟩ := exists_offset_of_and 6 1 h; exact ⟨.chrr o, ho, rfl, rfl⟩
  | meterw => obtain ⟨d, hd⟩ := exists_data_of_and 7 0 h; exact ⟨.meterw d, hd, rfl, rfl⟩
  | triacw => obtain ⟨d, hd⟩ := exists_data_of_and 7 1 h; exact ⟨.triacw d, hd, rfl, rfl⟩
  | wait =>
    obtain ⟨o, d, rfl⟩ := exists_bytes_of_and 14 1 h
    exact ⟨.wait (o ++ d), encode_wait_of_fields rfl rfl, rfl, rfl⟩
  | inread => exact ⟨.inread, h.symm.trans BitVec.and_allOnes, rfl, rfl⟩
  | aux1r => exact ⟨.aux1r, h.symm.trans BitVec.and_allOnes, rfl, rfl⟩
  | aux2r => exact ⟨.aux2r, h.symm.trans BitVec.and_allOnes, rfl, rfl⟩
  | tick => exact ⟨.tick, h.symm.trans BitVec.and_allOnes, rfl, rfl⟩
  | reset => exact ⟨.reset, h.symm.trans BitVec.and_allOnes, rfl, rfl⟩
  | ic24exp => exact ⟨.ic24exp, h.symm.trans BitVec.and_allOnes, rfl, rfl⟩

end Sys2Proof

namespace Sys2Proof.Claims

open Sys2Proof.Machine

/-! ## The statements -/

/-- Settles O50: the decoder finds the row by `op` and `sel`, and the row gives back its operand. -/
theorem decodeOfEncode : Obligations.DecodeOfEncode := decode_encode

/-- Settles O51: a row answers only where every bit it fixes agrees with its operation's word. -/
theorem encodeOfDecode : Obligations.EncodeOfDecode := fun _ _ => encode_of_decode

/-- Settles O52: to decode is to be an operation's word, and these are the words that agree with a
row. -/
theorem decodeFollowsOperationMap : Obligations.DecodeFollowsOperationMap := by
  refine fun w => ⟨fun i h => ?_, fun j h => ?_⟩
  · rw [← encode_of_decode h]
    exact encode_and_rowMask i
  · obtain ⟨i, hword, hrow⟩ := exists_encode_eq_of_and_rowMask h
    exact ⟨i, decode_eq_ok_iff.2 hword, hrow⟩

/-- Settles O53: the nine words are those of the operations named, and the decoder refuses the other
three. -/
theorem decodedWords : Obligations.DecodedWords :=
  ⟨decode_encode (.setgateB true), decode_encode (.setinhG1 true), decode_encode (.lampa 0xFF),
    decode_encode (.ledw 0x3F), decode_encode .aux2r, decode_encode (.chrw 2 0x24),
    decode_encode (.chrr 3), decode_encode .tick, decode_encode (.wait 9900),
    by decide, by decide, by decide⟩

/-- Settles O54: a due expiry is the first case of a step; its word is that of IC24EXP, which the
host's decoder refuses. -/
theorem expiryIsNoHostOperation : Obligations.ExpiryIsNoHostOperation :=
  ⟨fun _ => step_of_due, rfl, decode_encode .ic24exp, decodeHost_encode_ic24exp⟩

end Sys2Proof.Claims

/-! # The strobe sequencer (40_strobe_sequencer.md): gates, inhibits, the pulse

First the model's `recompute` against the statements' truth table and the two courses of a gate-A
write; then what a run of gate and G1 writes latches and what it leaves alone. -/

namespace Sys2Proof.Machine

open Sys2Proof.Claims

/-! ## The column is the truth table's (40_strobe_sequencer.md R142) -/

theorem gateColumn_eq_ofNat (gc gb ga : Bool) :
    gateColumn gc gb ga = BitVec.ofNat 3 (4 * gc.toNat + 2 * gb.toNat + ga.toNat) := by
  rw [← gateColumn_toNat, BitVec.ofNat_toNat, BitVec.setWidth_eq]

/-- The model's `recompute` and the statements' own truth table agree. -/
theorem recompute_eq_settled (u : Strobe) : u.recompute = settled u := by
  rw [recompute_eq, gateColumn_eq_ofNat]
  rfl

/-- A sound column is up to date: `recompute` finds nothing to write. -/
theorem recompute_of_columnSound {s : State} (hs : s.ColumnSound) :
    s.strobe.recompute = s.strobe := by
  have hcolumn : s.strobe.recompute.column = s.strobe.column := by
    by_cases hinh : s.strobe.g2a = true ∨ s.strobe.g2b = true
    · rw [recompute_column_of_inhibit _ hinh, hs.inhibited hinh]
    · obtain ⟨ha, hb⟩ : s.strobe.g2a = false ∧ s.strobe.g2b = false := by simpa using hinh
      cases h1 : s.strobe.g1 with
      | true =>
        rw [recompute_column_of_enabled _ h1 ha hb]
        exact BitVec.eq_of_toNat_eq ((gateColumn_toNat _ _ _).trans (hs.decoded ha hb h1).symm)
      | false => exact recompute_column_of_hold _ h1 ha hb
  rw [recompute_eq] at hcolumn ⊢
  exact congrArg (fun c => { s.strobe with column := c }) hcolumn

/-! ## The gate-A write and the expiry on the sequencer (R143, R151, R153) -/

section gateA

variable (cfg : Cfg) (now : Nat) (level : Bool) (u : Strobe)

theorem setGateA_eq_settled :
    u.setGateA cfg now level = settled
      (if u.ga = false ∧ level = true then
        { u with
          ga := true
          strobeActive := true
          ic24Deadline := some (now + cfg.tIc24)
          g2a := if cfg.ic24CouplesG2A = true then false else u.g2a }
      else { u with ga := level }) := by
  rw [Strobe.setGateA, recompute_eq_settled]
  cases hga : u.ga <;> cases level <;> rfl

theorem expire_eq_settled :
    u.expire cfg = settled
      { u with
        strobeActive := false
        ic24Deadline := none
        g2a := if cfg.ic24CouplesG2A = true then true else u.g2a } :=
  recompute_eq_settled _

@[simp] theorem setGateA_ga : (u.setGateA cfg now level).ga = level := by
  simp [Strobe.setGateA, apply_ite Strobe.ga]
@[simp] theorem setGateA_gb : (u.setGateA cfg now level).gb = u.gb := by
  simp [Strobe.setGateA, apply_ite Strobe.gb]
@[simp] theorem setGateA_gc : (u.setGateA cfg now level).gc = u.gc := by
  simp [Strobe.setGateA, apply_ite Strobe.gc]
@[simp] theorem setGateA_g1 : (u.setGateA cfg now level).g1 = u.g1 := by
  simp [Strobe.setGateA, apply_ite Strobe.g1]
@[simp] theorem setGateA_g2b : (u.setGateA cfg now level).g2b = u.g2b := by
  simp [Strobe.setGateA, apply_ite Strobe.g2b]

variable {cfg u}

theorem setGateA_g2a_of_uncoupled (h : cfg.ic24CouplesG2A = false) :
    (u.setGateA cfg now level).g2a = u.g2a := by
  simp [Strobe.setGateA, apply_ite Strobe.g2a, h]

theorem setGateA_g2a_of_deasserted (h : u.g2a = false) :
    (u.setGateA cfg now level).g2a = false := by
  simp [Strobe.setGateA, apply_ite Strobe.g2a, h]

theorem setGateA_column_of_hold (h1 : u.g1 = false) (ha : u.g2a = false) (hb : u.g2b = false) :
    (u.setGateA cfg now level).column = u.column := by
  rw [Strobe.setGateA, recompute_column_of_hold]
  all_goals split <;> simp [h1, ha, hb]

theorem setGateA_strobeActive_of_rise (h : u.ga = false) :
    (u.setGateA cfg now true).strobeActive = true := by
  simp [Strobe.setGateA, risingEdge, h]

theorem setGateA_ic24Deadline_of_rise (h : u.ga = false) :
    (u.setGateA cfg now true).ic24Deadline = some (now + cfg.tIc24) := by
  simp [Strobe.setGateA, risingEdge, h]

end gateA

/-- Where no expiry is due IC24EXP cannot occur; the model refuses it (log 3). -/
theorem exec_ic24exp_of_not_due {s : State} (h : expiryDue s = false) :
    exec .ic24exp s = .refused .expiryNotEnabled := by
  simp [exec, execIc24exp, h]

/-! ## One gate or G1 write -/

section lineWrite

variable {i : Instr} {s t u : State}

theorem isGateOrG1Write_of_isGateWrite (hi : isGateWrite i = true) : isGateOrG1Write i = true := by
  simp [isGateOrG1Write, hi]

theorem exec_gateOrG1Write_completes (hi : isGateOrG1Write i = true) (s : State) :
    ∃ t, exec i s = .next t := by
  cases i with
  | setgateA | setgateB | setgateC | setinhG1 => exact ⟨_, rfl⟩
  | _ => cases hi

/-- The write ends in a `recompute`, so the column is sound after it, whatever it was before. -/
theorem exec_gateOrG1Write_columnSound (hi : isGateOrG1Write i = true) (h : exec i s = .next t) :
    t.ColumnSound := by
  cases writes_of_exec h with
  | setgateA | setgateB | setgateC | setinhG1 => exact columnSound_of_recompute _ rfl
  | _ => cases hi

/-- From `s` to `t` the inhibits stay, but for a coupled rise of gate A, which clears G2A (R151). -/
structure KeepsInhibits (s t : State) : Prop where
  cfg : t.cfg = s.cfg
  g2b : t.strobe.g2b = s.strobe.g2b
  g2aUncoupled : s.cfg.ic24CouplesG2A = false → t.strobe.g2a = s.strobe.g2a
  g2aDeasserted : s.strobe.g2a = false → t.strobe.g2a = false

theorem KeepsInhibits.refl (s : State) : KeepsInhibits s s := ⟨rfl, rfl, fun _ => rfl, id⟩

theorem KeepsInhibits.trans (hst : KeepsInhibits s t) (htu : KeepsInhibits t u) :
    KeepsInhibits s u where
  cfg := htu.cfg.trans hst.cfg
  g2b := htu.g2b.trans hst.g2b
  g2aUncoupled h := (htu.g2aUncoupled (hst.cfg ▸ h)).trans (hst.g2aUncoupled h)
  g2aDeasserted h := htu.g2aDeasserted (hst.g2aDeasserted h)

theorem exec_gateOrG1Write_keepsInhibits (hi : isGateOrG1Write i = true) (h : exec i s = .next t) :
    KeepsInhibits s t := by
  cases writes_of_exec h with
  | setgateA level =>
    exact ⟨rfl, setGateA_g2b _ _ _ _, setGateA_g2a_of_uncoupled _ _, setGateA_g2a_of_deasserted _ _⟩
  | setgateB | setgateC | setinhG1 =>
    exact ⟨rfl, recompute_g2b _, fun _ => recompute_g2a _, fun ha => (recompute_g2a _).trans ha⟩
  | _ => cases hi

/-- Only gates were written from `s` to `t`: G1 stays too, and a held column (R146). -/
structure KeepsEnables (s t : State) : Prop extends KeepsInhibits s t where
  g1 : t.strobe.g1 = s.strobe.g1
  columnHeld : s.strobe.g1 = false → s.strobe.g2a = false → s.strobe.g2b = false →
    t.strobe.column = s.strobe.column

theorem KeepsEnables.refl (s : State) : KeepsEnables s s :=
  ⟨.refl s, rfl, fun _ _ _ => rfl⟩

theorem KeepsEnables.trans (hst : KeepsEnables s t) (htu : KeepsEnables t u) :
    KeepsEnables s u where
  toKeepsInhibits := hst.toKeepsInhibits.trans htu.toKeepsInhibits
  g1 := htu.g1.trans hst.g1
  columnHeld h1 ha hb :=
    (htu.columnHeld (hst.g1.trans h1) (hst.g2aDeasserted ha) (hst.g2b.trans hb)).trans
      (hst.columnHeld h1 ha hb)

theorem exec_gateWrite_keepsEnables (hi : isGateWrite i = true) (h : exec i s = .next t) :
    KeepsEnables s t := by
  have hkeeps := exec_gateOrG1Write_keepsInhibits (isGateOrG1Write_of_isGateWrite hi) h
  cases writes_of_exec h with
  | setgateA level => exact ⟨hkeeps, setGateA_g1 _ _ _ _, setGateA_column_of_hold _ _⟩
  | setgateB | setgateC =>
    exact ⟨hkeeps, recompute_g1 _, fun h1 ha hb => recompute_column_of_hold _ h1 ha hb⟩
  | _ => cases hi

/-- The gate latches of `t` are those of `s` with the levels of `ops` written in order (R154). -/
structure GatesLatched (ops : List Instr) (s t : State) : Prop where
  ga : t.strobe.ga = lastGateA s.strobe.ga ops
  gb : t.strobe.gb = lastGateB s.strobe.gb ops
  gc : t.strobe.gc = lastGateC s.strobe.gc ops

theorem exec_gateWrite_latches (hi : isGateWrite i = true) (h : exec i s = .next t) :
    GatesLatched [i] s t := by
  cases writes_of_exec h with
  | setgateA level => exact ⟨setGateA_ga _ _ _ _, setGateA_gb _ _ _ _, setGateA_gc _ _ _ _⟩
  | setgateB | setgateC => exact ⟨recompute_ga _, recompute_gb _, recompute_gc _⟩
  | _ => cases hi

/-- The last level of a run is the last level of its rest, from what its first write left. -/
theorem GatesLatched.cons {ops : List Instr} (hst : GatesLatched [i] s t)
    (htu : GatesLatched ops t u) : GatesLatched (i :: ops) s u where
  ga := by rw [htu.ga, hst.ga]; rfl
  gb := by rw [htu.gb, hst.gb]; rfl
  gc := by rw [htu.gc, hst.gc]; rfl

end lineWrite

/-! ## Runs of gate and G1 writes (R146, R154, R155) -/

section lineRun

variable {ops : List Instr} {s t : State}

theorem execAll_cons_of_next {i : Instr} (rest : List Instr) (h : exec i s = .next t) :
    execAll (i :: rest) s = execAll rest t := by
  rw [execAll, h]

theorem execAll_gateOrG1Writes_completes (hops : ∀ i ∈ ops, isGateOrG1Write i = true) (s : State) :
    ∃ t, execAll ops s = .next t := by
  induction ops generalizing s with
  | nil => exact ⟨s, rfl⟩
  | cons i rest ih =>
    obtain ⟨hi, hrest⟩ := List.forall_mem_cons.1 hops
    obtain ⟨u, hu⟩ := exec_gateOrG1Write_completes hi s
    rw [execAll_cons_of_next rest hu]
    exact ih hrest u

theorem execAll_gateOrG1Writes_keepsInhibits (hops : ∀ i ∈ ops, isGateOrG1Write i = true)
    (h : execAll ops s = .next t) : KeepsInhibits s t :=
  execAll_induction .refl .trans exec_gateOrG1Write_keepsInhibits hops h

theorem execAll_gateOrG1Writes_columnSound (hs : s.ColumnSound)
    (hops : ∀ i ∈ ops, isGateOrG1Write i = true) (h : execAll ops s = .next t) : t.ColumnSound :=
  execAll_induction (R := fun s t => s.ColumnSound → t.ColumnSound) (fun _ => id)
    (fun hst htu hs => htu (hst hs)) (fun hi hu _ => exec_gateOrG1Write_columnSound hi hu) hops h hs

theorem execAll_gateWrites_keepsEnables (hops : ∀ i ∈ ops, isGateWrite i = true)
    (h : execAll ops s = .next t) : KeepsEnables s t :=
  execAll_induction .refl .trans exec_gateWrite_keepsEnables hops h

/-- A run of gate writes completes, and leaves on each gate the last level written. -/
theorem execAll_gateWrites_latches (hops : ∀ i ∈ ops, isGateWrite i = true) (s : State) :
    ∃ t, execAll ops s = .next t ∧ GatesLatched ops s t := by
  induction ops generalizing s with
  | nil => exact ⟨s, rfl, rfl, rfl, rfl⟩
  | cons i rest ih =>
    obtain ⟨hi, hrest⟩ := List.forall_mem_cons.1 hops
    obtain ⟨u, hu⟩ := exec_gateOrG1Write_completes (isGateOrG1Write_of_isGateWrite hi) s
    obtain ⟨t, ht, hlatched⟩ := ih hrest u
    exact ⟨t, (execAll_cons_of_next rest hu).trans ht,
      (exec_gateWrite_latches hi hu).cons hlatched⟩

/-- After at least one gate write the column is sound, whatever it was before. -/
theorem execAll_gateWrites_columnSound (hne : ops ≠ []) (hops : ∀ i ∈ ops, isGateWrite i = true)
    (h : execAll ops s = .next t) : t.ColumnSound := by
  have hlines : ∀ i ∈ ops, isGateOrG1Write i = true :=
    fun i hi => isGateOrG1Write_of_isGateWrite (hops i hi)
  cases ops with
  | nil => exact absurd rfl hne
  | cons i rest =>
    obtain ⟨hi, hrest⟩ := List.forall_mem_cons.1 hlines
    obtain ⟨u, hu⟩ := exec_gateOrG1Write_completes hi s
    rw [execAll_cons_of_next rest hu] at h
    exact execAll_gateOrG1Writes_columnSound (exec_gateOrG1Write_columnSound hi hu) hrest h

/-- An inhibit that these writes cannot clear keeps a sound column at 0 (R155). -/
theorem execAll_column_zero_of_inhibit (hs : s.ColumnSound)
    (hinh : s.cfg.ic24CouplesG2A = false ∧ s.strobe.g2a = true ∨ s.strobe.g2b = true)
    (hops : ∀ i ∈ ops, isGateOrG1Write i = true) :
    ∃ t, execAll ops s = .next t ∧ t.strobe.column = 0 := by
  obtain ⟨t, ht⟩ := execAll_gateOrG1Writes_completes hops s
  have hkeeps := execAll_gateOrG1Writes_keepsInhibits hops ht
  have hinhibited : t.strobe.g2a = true ∨ t.strobe.g2b = true :=
    hinh.imp (fun ⟨hcfg, ha⟩ => (hkeeps.g2aUncoupled hcfg).trans ha) hkeeps.g2b.trans
  exact ⟨t, ht, (execAll_gateOrG1Writes_columnSound hs hops ht).inhibited hinhibited⟩

end lineRun

end Sys2Proof.Machine

namespace Sys2Proof.Claims

open Sys2Proof.Machine

/-! ## The statements -/

/-- Settles O5: the inhibit's own write leaves a sound column, and no gate or G1 write clears the
inhibit. -/
theorem inhibitDominance : Obligations.InhibitDominance := by
  refine fun s ops hops => ⟨?_, fun hcfg => ?_⟩
  · rw [execAll_cons_of_next (i := .setinhG2B true) ops rfl]
    exact execAll_column_zero_of_inhibit
      (columnSound_of_recompute { s.strobe with g2b := true } rfl) (.inr (recompute_g2b _)) hops
  · rw [execAll_cons_of_next (i := .setinhG2A true) ops rfl]
    exact execAll_column_zero_of_inhibit
      (columnSound_of_recompute { s.strobe with g2a := true } rfl)
      (.inl ⟨hcfg, recompute_g2a _⟩) hops

/-- Settles O6: the gates hold the last levels, the enable lines still enable, and a sound column
under these lines is the gates' value. -/
theorem columnFollowsGates : Obligations.ColumnFollowsGates := by
  intro s ops hne hops h1 ha hb
  obtain ⟨t, ht, hlatched⟩ := execAll_gateWrites_latches hops s
  have hkeeps := execAll_gateWrites_keepsEnables hops ht
  exact ⟨t, ht, hlatched.ga, hlatched.gb, hlatched.gc,
    (execAll_gateWrites_columnSound hne hops ht).decoded (hkeeps.g2aDeasserted ha)
      (hkeeps.g2b.trans hb) (hkeeps.g1.trans h1)⟩

/-- Settles O7: the rise writes the new deadline over any other, and a wait falls short of it or
takes it. -/
theorem retriggerReplacesDeadline : Obligations.RetriggerReplacesDeadline := by
  intro s hga
  have hactive := setGateA_strobeActive_of_rise (cfg := s.cfg) s.now hga
  have hdeadline := setGateA_ic24Deadline_of_rise (cfg := s.cfg) s.now hga
  refine ⟨{ s with strobe := s.strobe.setGateA s.cfg s.now true }, rfl, hactive, hdeadline,
    fun n => ?_⟩
  by_cases hn : n.toNat < s.cfg.tIc24
  · refine ⟨_, execWait_of_ahead fun d hd => ?_, fun _ => ⟨hactive, hdeadline⟩,
      fun hle => absurd hn (Nat.not_lt.2 hle)⟩
    obtain rfl := Option.some.inj (hdeadline.symm.trans hd)
    exact Nat.add_lt_add_left hn _
  · exact ⟨_, execWait_of_reached hdeadline (Nat.add_le_add_left (Nat.not_lt.1 hn) _),
      fun hlt => absurd hlt hn, fun _ => ⟨expire_strobeActive _ _, expire_ic24Deadline _ _⟩⟩

/-- Settles O8: gate writes alone keep the held column; asserting G1 then decodes the latched
gates. -/
theorem gOneHoldDefersGates : Obligations.GOneHoldDefersGates := by
  intro s ops hops h1 ha hb
  obtain ⟨t, ht, hlatched⟩ := execAll_gateWrites_latches hops s
  have hkeeps := execAll_gateWrites_keepsEnables hops ht
  have hloaded := recompute_column_of_enabled { t.strobe with g1 := true } rfl
    (hkeeps.g2aDeasserted ha) (hkeeps.g2b.trans hb)
  refine ⟨t, _, ht, hkeeps.columnHeld h1 ha hb, rfl, (congrArg BitVec.toNat hloaded).trans ?_⟩
  rw [gateColumn_toNat, hlatched.ga, hlatched.gb, hlatched.gc]

/-- Settles O44, by the two courses of WAIT. -/
theorem waitMovesTimePastExpiry : Obligations.WaitMovesTimePastExpiry := by
  refine fun n s => ⟨execWait_of_ahead, fun d hd hle => ?_⟩
  rw [← expire_eq_settled]
  exact execWait_of_reached hd hle

/-- Settles O1: the gate-A write of the sequencer, in the statements' own words. -/
theorem setgateALatchesAndTriggers : Obligations.SetgateALatchesAndTriggers := by
  intro level s
  rw [← setGateA_eq_settled]
  rfl

/-- Settles O2: each write is a latch and a `recompute`; the level already latched leaves the
sequencer as it is, and there `recompute` changes no sound column. -/
theorem setgateBAndCLatchAndRecompute : Obligations.SetgateBAndCLatchAndRecompute := by
  refine ⟨⟨rfl, rfl, rfl, rfl⟩, fun level s => ?_, fun s hs => ?_, ⟨_, rfl, rfl, rfl⟩,
    ⟨_, rfl, rfl⟩⟩
  · simp only [← recompute_eq_settled]
    exact ⟨rfl, rfl⟩
  · calc exec (.setgateB s.strobe.gb) s
        = .next { s with strobe := s.strobe.recompute } := rfl
      _ = .next s := by rw [recompute_of_columnSound hs]

/-- Settles O3: each enable write is a latch and a `recompute`. -/
theorem setinhLatchesAndRecomputes : Obligations.SetinhLatchesAndRecomputes := by
  intro level s
  simp only [← recompute_eq_settled]
  exact ⟨rfl, rfl, rfl⟩

/-- Settles O4: IC24's step where it is due, the model's refusal where it is not. -/
theorem expiryEndsPulse : Obligations.ExpiryEndsPulse := by
  refine fun s => ⟨fun hdue => ?_, fun hdue => ?_⟩
  · rw [← expire_eq_settled]
    exact exec_ic24exp_of_due ((expiryDue_eq_true_iff s).2 hdue)
  · exact exec_ic24exp_of_not_due ((expiryDue_eq_false_iff s).2 hdue)

end Sys2Proof.Claims

/-! # The lamp matrix (41_lamp_matrix.md): the baseline ports and the extension cards

First what a group write leaves in every cell; then the two ports and their latches, then LAMPX
under each kind of card. The large cards write the same lamps, which is said once for all three. -/

namespace Sys2Proof.Machine

open Sys2Proof.Claims

/-! ## A group of lamp cells, committed or not (41_lamp_matrix.md R162, R172, R176) -/

section group

variable {w : Nat} (m : Memory Bool) (base : Nat) (data : BitVec w) {n k : Nat}

theorem read_writeBits_of_inGroup (hk : inGroup base n k) :
    (m.writeBits base data n).read lampOff k = data.getLsbD (k - base) :=
  (read_writeBits m base data n k).trans (if_pos hk)

theorem read_writeBits_of_not_inGroup (hk : ¬ inGroup base n k) :
    (m.writeBits base data n).read lampOff k = m.read lampOff k :=
  (read_writeBits m base data n k).trans (if_neg hk)

variable {commit : Prop} [Decidable commit]

theorem read_commit_of_inGroup (hc : commit) (hk : inGroup base n k) :
    (if commit then m.writeBits base data n else m).read lampOff k = data.getLsbD (k - base) := by
  rw [if_pos hc, read_writeBits_of_inGroup m base data hk]

/-- A cell outside the group stays, and without a commit every cell stays. -/
theorem read_commit_of_not (h : ¬ (commit ∧ inGroup base n k)) :
    (if commit then m.writeBits base data n else m).read lampOff k = m.read lampOff k := by
  split
  next hc => exact read_writeBits_of_not_inGroup m base data fun hk => h ⟨hc, hk⟩
  · rfl

end group

/-! ## The baseline ports and their latches (R162 to R164) -/

section latches

variable {s t : State} {i : Instr}

theorem exec_lampa_of_latched (data : Byte) (h : s.strobe.column = s.lamps.lampLatchA) :
    exec (.lampa data) s = .next s := by
  rw [exec_lampa_eq, writePortA_of_latched data h]

theorem exec_lampb_of_latched (data : Byte) (h : s.strobe.column = s.lamps.lampLatchB) :
    exec (.lampb data) s = .next s := by
  rw [exec_lampb_eq, writePortB_of_latched data h]

/-- Written or dropped, the port ends with the column in its latch. -/
@[simp] theorem writePortA_lampLatchA (c : BitVec 3) (data : Byte) (u : LampUnit) :
    (u.writePortA c data).lampLatchA = c := by
  unfold LampUnit.writePortA
  split
  · rfl
  next h => exact (not_not.1 h).symm

@[simp] theorem writePortB_lampLatchB (c : BitVec 3) (data : Byte) (u : LampUnit) :
    (u.writePortB c data).lampLatchB = c := by
  unfold LampUnit.writePortB
  split
  · rfl
  next h => exact (not_not.1 h).symm

/-- LARGE_CARD_B leaves the lamp unit as LARGE_CARD_A does (R181). -/
@[simp] theorem largeCardLampsAndLed_lamps (data : Byte) (s : State) :
    (largeCardLampsAndLed data s).lamps = largeCardWrite s.strobe data s.lamps := by
  simp only [largeCardLampsAndLed]
  split <;> rfl

/-- The extension cards have latches of their own and leave the two ports' alone. -/
theorem exec_lampx_keeps_latches {data : Byte} (h : exec (.lampx data) s = .next t) :
    t.lamps.lampLatchA = s.lamps.lampLatchA ∧ t.lamps.lampLatchB = s.lamps.lampLatchB := by
  rw [exec, execLampx] at h
  split at h <;> obtain rfl := Host.Outcome.next.inj h
  all_goals simp [smallCardWrite, largeCardLamps, largeCardWrite]

/-- A port's latch is written by its own write and by RESET alone. -/
theorem exec_keeps_latches (hi : i ≠ .reset) (h : exec i s = .next t) :
    ((∀ d, i ≠ .lampa d) → t.lamps.lampLatchA = s.lamps.lampLatchA) ∧
    ((∀ d, i ≠ .lampb d) → t.lamps.lampLatchB = s.lamps.lampLatchB) := by
  cases writes_of_exec h with
  | lampa d =>
    rw [← Host.Outcome.next.inj ((exec_lampa_eq d s).symm.trans h)]
    exact ⟨fun hne => absurd rfl (hne d), fun _ => writePortA_lampLatchB _ _ _⟩
  | lampb d =>
    rw [← Host.Outcome.next.inj ((exec_lampb_eq d s).symm.trans h)]
    exact ⟨fun _ => writePortB_lampLatchA _ _ _, fun hne => absurd rfl (hne d)⟩
  | lampx =>
    obtain ⟨hA, hB⟩ := exec_lampx_keeps_latches h
    exact ⟨fun _ => hA, fun _ => hB⟩
  | reset => exact absurd rfl hi
  | _ => exact ⟨fun _ => rfl, fun _ => rfl⟩

variable {ops : List Instr}

theorem execAll_keeps_lampLatchA (hops : ∀ i ∈ ops, i ≠ .reset ∧ ∀ d, i ≠ .lampa d)
    (h : execAll ops s = .next t) : t.lamps.lampLatchA = s.lamps.lampLatchA :=
  execAll_induction (R := fun s t => t.lamps.lampLatchA = s.lamps.lampLatchA) (fun _ => rfl)
    (fun hst htu => htu.trans hst)
    (fun ⟨hreset, hport⟩ hexec => (exec_keeps_latches hreset hexec).1 hport) hops h

theorem execAll_keeps_lampLatchB (hops : ∀ i ∈ ops, i ≠ .reset ∧ ∀ d, i ≠ .lampb d)
    (h : execAll ops s = .next t) : t.lamps.lampLatchB = s.lamps.lampLatchB :=
  execAll_induction (R := fun s t => t.lamps.lampLatchB = s.lamps.lampLatchB) (fun _ => rfl)
    (fun hst htu => htu.trans hst)
    (fun ⟨hreset, hport⟩ hexec => (exec_keeps_latches hreset hexec).2 hport) hops h

end latches

/-! ## LAMPX under each kind of card (R170) -/

section lampx

variable {s : State} (data : Byte)

theorem exec_lampx_of_none (h : s.cfg.lampExtender = .none) : exec (.lampx data) s = .next s := by
  simp [exec, execLampx, h]

theorem exec_lampx_of_smallCard (h : s.cfg.lampExtender = .smallCard) :
    exec (.lampx data) s = .next { s with lamps := smallCardWrite s.cfg data s.lamps } := by
  simp [exec, execLampx, h]

theorem exec_lampx_of_largeCardA_or_C
    (h : s.cfg.lampExtender = .largeCardA ∨ s.cfg.lampExtender = .largeCardC) :
    exec (.lampx data) s = .next (largeCardLamps data s) := by
  obtain h | h := h <;> simp [exec, execLampx, h]

theorem exec_lampx_of_largeCardB (h : s.cfg.lampExtender = .largeCardB) :
    exec (.lampx data) s = .next (largeCardLampsAndLed data s) := by
  simp [exec, execLampx, h]

end lampx

/-! ## The small card (R172) -/

/-- The phase in the statements' numbers. -/
theorem smallCardPhase_val (u : LampUnit) (data : Byte) :
    (smallCardPhase u data).val =
      if smallCardColumn data ≠ u.scCol then 0 else u.scPhase.val := by
  unfold smallCardPhase
  split <;> rfl

theorem phaseNext_val (p : Fin 3) : (phaseNext p).val = (p.val + 1) % 3 := by
  revert p; decide

/-- A committed line of the small card is the complement of its data bit (30_encoding.md R114). -/
theorem smallCardValue_getLsbD_of_inGroup (data : Byte) {base k : Nat} (hk : inGroup base 5 k) :
    (smallCardValue data).getLsbD (k - base) = !data.getLsbD (3 + (k - base)) := by
  obtain ⟨hle, hlt⟩ := hk
  exact smallCardValue_getLsbD data _ (by omega)

/-! ## The large cards (R176, R177, R179, R181, R182) -/

/-- The lamp array after a large-card write, by whether the write is live. -/
def State.cardCells (s : State) (live : Bool) (data : Byte) : Memory Bool :=
  if live then s.lamps.lamp.writeBits (oldBankGroup s) data 7 else s.lamps.lamp

/-- The secondary LED array after a write on LARGE_CARD_B, by whether the write is live. -/
def State.cardLeds (s : State) (live : Bool) (data : Byte) : Memory Byte :=
  if live then s.leds.led2.write ledBlank (led2Index s.lamps.lastB7 s.strobe.column) (~~~data)
  else s.leds.led2

section largeCard

variable {s : State} {data : Byte} {live : Bool}

theorem cardLiveNext_eq_true_iff (s : State) (data : Byte) :
    cardLiveNext s.strobe.strobeActive s.lamps.lastB7 (bankBit data) = true ↔
      writeIsLive s data := by
  simp [cardLiveNext, writeIsLive, bankBit]

/-- The model's `card_live` and the statements' own predicate agree. -/
theorem cardLiveNext_eq_of_iff (h : live = true ↔ writeIsLive s data) :
    cardLiveNext s.strobe.strobeActive s.lamps.lastB7 (bankBit data) = live :=
  Bool.eq_iff_iff.2 ((cardLiveNext_eq_true_iff s data).trans h.symm)

theorem largeCardLamps_eq (h : live = true ↔ writeIsLive s data) :
    largeCardLamps data s = { s with
      lamps := { s.lamps with
        cardLive := live, lastB7 := data.getLsbD 7, lamp := s.cardCells live data } } := by
  obtain rfl := cardLiveNext_eq_of_iff h
  rfl

/-- The pulse is already part of `card_live`, so the LED is written exactly when the lamps are. -/
theorem largeCardLampsAndLed_eq (h : live = true ↔ writeIsLive s data) :
    largeCardLampsAndLed data s = { largeCardLamps data s with
      leds := { s.leds with led2 := s.cardLeds live data } } := by
  have hguard : (s.strobe.strobeActive && live) = live :=
    Bool.and_eq_right_iff_imp.2 fun hlive => (h.1 hlive).1
  simp only [largeCardLampsAndLed, State.cardLeds, largeCardLamps_eq h, hguard]
  split <;> rfl

/-- On every large card a live write sets the group of the old bank, takes the new bank bit, and
leaves the sequencer alone. -/
theorem exec_lampx_of_live (hkind : isLargeCard s.cfg.lampExtender) (h : writeIsLive s data) :
    ∃ u, exec (.lampx data) s = .next u ∧ u.cfg = s.cfg ∧ u.strobe = s.strobe ∧
      u.lamps = { s.lamps with
        cardLive := true
        lastB7 := data.getLsbD 7
        lamp := s.lamps.lamp.writeBits (oldBankGroup s) data 7 } := by
  have hlive : true = true ↔ writeIsLive s data := iff_of_true rfl h
  have hlamps := congrArg State.lamps (largeCardLamps_eq hlive)
  obtain hA | hB | hC := hkind
  · exact ⟨_, exec_lampx_of_largeCardA_or_C data (.inl hA), rfl, rfl, hlamps⟩
  · exact ⟨_, (exec_lampx_of_largeCardB data hB).trans
      (congrArg _ (largeCardLampsAndLed_eq hlive)), rfl, rfl, hlamps⟩
  · exact ⟨_, exec_lampx_of_largeCardA_or_C data (.inr hC), rfl, rfl, hlamps⟩

theorem read_cardCells_of_inGroup {k : Nat} (h : live = true ∧ inGroup (oldBankGroup s) 7 k) :
    (s.cardCells live data).read lampOff k = data.getLsbD (k - oldBankGroup s) :=
  read_commit_of_inGroup _ _ _ h.1 h.2

theorem read_cardCells_of_not {k : Nat} (h : ¬ (live = true ∧ inGroup (oldBankGroup s) 7 k)) :
    (s.cardCells live data).read lampOff k = s.lampAt k :=
  read_commit_of_not _ _ _ h

theorem read_cardLeds_of_index {k : Nat}
    (h : live = true ∧ k = 8 * s.lamps.lastB7.toNat + s.strobe.column.toNat) :
    (s.cardLeds live data).read ledBlank k = ~~~data := by
  obtain ⟨hlive, hk⟩ := h
  rw [State.cardLeds, if_pos hlive]
  exact (read_write _ _ _ _ _).trans (if_pos hk.symm)

theorem read_cardLeds_of_not {k : Nat}
    (h : ¬ (live = true ∧ k = 8 * s.lamps.lastB7.toNat + s.strobe.column.toNat)) :
    (s.cardLeds live data).read ledBlank k = s.led2At k := by
  rw [State.cardLeds]
  split
  next hlive => exact (read_write _ _ _ _ _).trans (if_neg fun hk => h ⟨hlive, hk.symm⟩)
  · rfl

theorem bankNumber_ne {b b' : Bool} (hb : b ≠ b') : b.toNat ≠ b'.toNat := by
  revert b b'; decide

/-- The two banks of a large card are apart (20_memory.md R71). -/
theorem banks_disjoint {b b' : Bool} (hb : b ≠ b') (c : BitVec 3) {k : Nat}
    (hk : inGroup (128 + 64 * b.toNat + 8 * c.toNat) 7 k) :
    ¬ inGroup (128 + 64 * b'.toNat + 8 * c.toNat) 7 k := by
  have hc := c.isLt
  have hbank : b.toNat ≠ b'.toNat := bankNumber_ne hb
  simp only [inGroup] at *
  omega

end largeCard

end Sys2Proof.Machine

namespace Sys2Proof.Claims

open Sys2Proof.Machine

/-! ## The statements -/

/-- Settles O9: each port's write is dropped at its latched column, and else a group write. -/
theorem baselineLampWrite : Obligations.BaselineLampWrite := by
  refine fun data s => ⟨exec_lampa_of_latched data, exec_lampb_of_latched data, fun h => ?_,
    fun h => ?_⟩
  · refine ⟨s.lamps.lamp.writeBits (portABase s.strobe.column) data 8, ?_, fun k =>
      ⟨read_writeBits_of_inGroup _ _ _, read_writeBits_of_not_inGroup _ _ _⟩⟩
    rw [exec_lampa_eq, LampUnit.writePortA, if_pos h]
  · refine ⟨s.lamps.lamp.writeBits (portBBase s.strobe.column) data 8, ?_, fun k =>
      ⟨read_writeBits_of_inGroup _ _ _, read_writeBits_of_not_inGroup _ _ _⟩⟩
    rw [exec_lampb_eq, LampUnit.writePortB, if_pos h]

/-- Settles O10: the first write leaves the column in the port's latch, and nothing between the two
writes that latch. -/
theorem repeatedColumnWriteDropped : Obligations.RepeatedColumnWriteDropped := by
  refine fun s t ops first second hreset hcolumn => ⟨fun hport h => ?_, fun hport h => ?_⟩
  · rw [execAll_cons_of_next _ (exec_lampa_eq first s)] at h
    have hlatch := execAll_keeps_lampLatchA (fun i hi => ⟨hreset i hi, hport i hi⟩) h
    rw [writePortA_lampLatchA] at hlatch
    exact exec_lampa_of_latched second (hcolumn.trans hlatch.symm)
  · rw [execAll_cons_of_next _ (exec_lampb_eq first s)] at h
    have hlatch := execAll_keeps_lampLatchB (fun i hi => ⟨hreset i hi, hport i hi⟩) h
    rw [writePortB_lampLatchB] at hlatch
    exact exec_lampb_of_latched second (hcolumn.trans hlatch.symm)

/-- Settles O13: the column and the phase are the model's, and the commit writes the inverted
lines. -/
theorem smallCardWrite : Obligations.SmallCardWrite := by
  intro data s col phase hkind hcol hphase
  obtain rfl : col = smallCardColumn data :=
    BitVec.eq_of_toNat_eq (hcol.trans (smallCardColumn_toNat data).symm)
  rw [← smallCardPhase_val] at hphase
  subst hphase
  refine ⟨_, phaseNext (smallCardPhase s.lamps data), exec_lampx_of_smallCard data hkind,
    phaseNext_val _, fun k => ?_⟩
  rw [Fin.val_inj]
  refine ⟨fun ⟨hcommit, hk⟩ => ?_, read_commit_of_not _ _ _⟩
  exact (read_commit_of_inGroup _ _ _ hcommit hk).trans (smallCardValue_getLsbD_of_inGroup data hk)

/-- Settles O14: kinds A and C write the lamps alone. -/
theorem largeCardWrite : Obligations.LargeCardWrite := by
  intro data s live hkind hlive
  refine ⟨s.cardCells live data, ?_, fun k => ⟨read_cardCells_of_inGroup, read_cardCells_of_not⟩⟩
  rw [exec_lampx_of_largeCardA_or_C data hkind, largeCardLamps_eq hlive]

/-- Settles O15: kind B writes the lamps of A and one secondary LED cell. -/
theorem largeCardBWritesLampsAndLed : Obligations.LargeCardBWritesLampsAndLed := by
  intro data s live hkind hlive
  refine ⟨s.cardCells live data, s.cardLeds live data, ?_,
    fun k => ⟨read_cardCells_of_inGroup, read_cardCells_of_not⟩,
    fun k => ⟨fun hk => ?_, read_cardLeds_of_not⟩⟩
  · rw [exec_lampx_of_largeCardB data hkind, largeCardLampsAndLed_eq hlive,
      largeCardLamps_eq hlive]
  · rw [read_cardLeds_of_index hk, BitVec.toNat_not]

/-- Settles O16: both writes are live, the second by the bank bit the first one left, and the two
banks are apart. -/
theorem largeCardBankLag : Obligations.LargeCardBankLag := by
  rintro first second s old new hkind hactive hfirst hsecond rfl rfl
  obtain ⟨u, hu, hcfg, hstrobe, hlamps⟩ := exec_lampx_of_live hkind ⟨hactive, hfirst⟩
  have hlive : writeIsLive u second := by
    rw [writeIsLive, hstrobe, hlamps, hsecond]
    exact ⟨hactive, hfirst.symm⟩
  obtain ⟨t, ht, -, -, hlamps'⟩ := exec_lampx_of_live (hcfg ▸ hkind) hlive
  refine ⟨t, (execAll_pair_of_next _ hu).trans ht, by rw [hlamps', hsecond], by rw [hlamps'],
    fun k => ?_⟩
  have hcells : t.lamps.lamp =
      (s.lamps.lamp.writeBits (oldBankGroup s) first 7).writeBits
        (128 + 64 * (first.getLsbD 7).toNat + 8 * s.strobe.column.toNat) second 7 := by
    rw [hlamps', oldBankGroup, hstrobe, hlamps]
  simp only [State.lampAt, hcells]
  refine ⟨fun hold => ?_, read_writeBits_of_inGroup _ _ _, fun hold hnew => ?_⟩
  · have hnew := banks_disjoint hfirst.symm s.strobe.column hold
    exact (read_writeBits_of_not_inGroup _ _ _ hnew).trans (read_writeBits_of_inGroup _ _ _ hold)
  · exact (read_writeBits_of_not_inGroup _ _ _ hnew).trans
      (read_writeBits_of_not_inGroup _ _ _ hold)

/-- Settles O12: without a card LAMPX answers its state. -/
theorem lampxWithoutCardDoesNothing : Obligations.LampxWithoutCardDoesNothing :=
  fun data _ => exec_lampx_of_none data

end Sys2Proof.Claims

/-! # The LED matrix driver and the alphanumeric link (42_led_alpha.md)

First the digit a column drives and what one LED write leaves in every digit; then when ALPHACLK
sends. -/

namespace Sys2Proof.Machine

/-! ## One LED digit (42_led_alpha.md R191, R192) -/

/-- A column drives one digit only: the statements' number of it is the model's. -/
theorem ledDigit_eq {wiring : LedWiring} {c : BitVec 3} {n : Nat}
    (hreversed : wiring = .reversed → n + c.toNat = 7) (hdirect : wiring = .direct → n = c.toNat) :
    ledDigit wiring c = n := by
  cases wiring with
  | reversed =>
    have hsum := hreversed rfl
    simp only [ledDigit]
    omega
  | direct => exact (hdirect rfl).symm

section ledDigit

variable {s : State} {n : Nat} (data : Byte)

theorem ledWrite_ledAt_same (hn : ledDigit s.cfg.ledWiring s.strobe.column = n) :
    (ledWrite data s).ledAt n = ~~~data :=
  (read_write _ _ _ _ _).trans (if_pos hn)

theorem ledWrite_ledAt_of_ne {k : Nat} (hn : ledDigit s.cfg.ledWiring s.strobe.column = n)
    (hk : k ≠ n) : (ledWrite data s).ledAt k = s.ledAt k :=
  (read_write _ _ _ _ _).trans (if_neg fun h => hk (h.symm.trans hn))

end ledDigit

/-! ## The clock of the alphanumeric link (42_led_alpha.md R195) -/

theorem risingEdge_eq_true_iff (old level : Bool) :
    risingEdge old level = true ↔ old = false ∧ level = true := by
  simp [risingEdge]

section alphaclk

variable {level : Bool} {u : LedUnit}

theorem alphaEvents_of_rise (h : u.alphaClk = false ∧ level = true) :
    alphaEvents level u = [.alphaBit u.alphaDat] :=
  if_pos ((risingEdge_eq_true_iff _ _).2 h)

theorem alphaEvents_of_no_rise (h : ¬ (u.alphaClk = false ∧ level = true)) :
    alphaEvents level u = [] :=
  if_neg fun hrise => h ((risingEdge_eq_true_iff _ _).1 hrise)

end alphaclk

end Sys2Proof.Machine

namespace Sys2Proof.Claims

open Sys2Proof.Machine

/-! ## The statements -/

/-- Settles O18: without a card LEDW is the model's `ledWrite`, and its digit is the column's under
either wiring. -/
theorem ledwWritesOneDigit : Obligations.LedwWritesOneDigit := by
  intro data s n hcard hreversed hdirect
  have hdigit : ledDigit s.cfg.ledWiring s.strobe.column = n := ledDigit_eq hreversed hdirect
  have hwritten : ((ledWrite data s).ledAt n).toNat = 255 - data.toNat := by
    rw [ledWrite_ledAt_same data hdigit, BitVec.toNat_not]
  exact ⟨(ledWrite data s).leds.led, exec_ledw_of_no_card data hcard, hwritten,
    fun _ hk => ledWrite_ledAt_of_ne data hdigit hk⟩

/-- Settles O19: ALPHACLK latches and emits its events, which are the data level on a rising edge and
none otherwise. -/
theorem alphaclkSendsOnRise : Obligations.AlphaclkSendsOnRise := by
  refine fun level s => ⟨fun hrise => ?_, fun hrise => ?_⟩
  · rw [exec_alphaclk_eq, alphaEvents_of_rise hrise, hrise.2]
    rfl
  · rw [exec_alphaclk_eq, alphaEvents_of_no_rise hrise, State.emit, List.append_nil]

/-- Settles O20: the two words are the packed ones, and the latch is the whole effect. -/
theorem alphadatLatchesOnly : Obligations.AlphadatLatchesOnly :=
  ⟨rfl, rfl, fun _ _ => rfl⟩

end Sys2Proof.Claims

/-! # The input-strobe scanner (43_input_scanner.md)

First the byte each read gives back; then the statement. -/

namespace Sys2Proof.Machine

/-! ## The three reads (43_input_scanner.md R206, R208, R210) -/

theorem exec_inread_eq (s : State) :
    exec .inread s =
      .next (s.drawnInput.replyInput (Config.inputPort s.inputDraws s.strobe.column)) := rfl

theorem exec_aux1r_eq (s : State) :
    exec .aux1r s = .next (s.drawnInput.replyInput (auxByte .aux1 s)) := rfl

theorem exec_aux2r_eq (s : State) :
    exec .aux2r s = .next (s.drawnInput.replyInput (auxByte .aux2 s)) := rfl

/-- A read counts one draw and appends the byte it gives back; every other element stays. -/
theorem replyInput_drawnInput_eq (s : State) (v : Byte) :
    s.drawnInput.replyInput v =
      { s with inputReplies := s.inputReplies ++ [v], inputDraws := s.inputDraws + 1 } := rfl

/-- An auxiliary byte is whatever function the configuration's cases compute, of this read's source
and pocket (43_input_scanner.md R209, R211). -/
theorem auxByte_eq_of_composeAux_eq {s : State} {compose : AuxPort → Byte → Fin 12 → Byte}
    (hcompose : ∀ port byte pocket,
      composeAux s.cfg.auxCompose port byte pocket = compose port byte pocket) (port : AuxPort) :
    auxByte port s = compose port (Config.auxSource s.inputDraws port)
      (Config.gamballPocket s.inputDraws) :=
  hcompose _ _ _

end Sys2Proof.Machine

namespace Sys2Proof.Claims

open Sys2Proof.Machine

/-! ## The statement -/

/-- Settles O21: each read draws and replies, INREAD with the column's port and the other two with
their composed byte. -/
theorem inputReadsGiveBack : Obligations.InputReadsGiveBack := by
  intro s compose hcompose
  refine ⟨?inread, ?aux1r, ?aux2r⟩
  case inread => rw [exec_inread_eq, replyInput_drawnInput_eq]
  case aux1r =>
    rw [exec_aux1r_eq, auxByte_eq_of_composeAux_eq hcompose, replyInput_drawnInput_eq]
  case aux2r =>
    rw [exec_aux2r_eq, auxByte_eq_of_composeAux_eq hcompose, replyInput_drawnInput_eq]

end Sys2Proof.Claims

/-! # The Barcrest characteriser and the fallback without a table (44_characteriser_barcrest.md)

First the operations under each variant and each offset; then where a call leaves the position, and
that over a run it never goes back. -/

namespace Sys2Proof.Machine

open Sys2Proof.Claims

/-! ## CHRW and CHRR under each variant (R220) -/

section variant

variable {s : State} (offset call : Byte)

theorem exec_chrw_of_barcrest {tbl : Vector ChrRow 72} (h : s.cfg.chr = .barcrest tbl) :
    exec (.chrw offset call) s = .next (barcrestWrite tbl offset call s) := by
  simp [exec, execChrw, h]

theorem exec_chrr_of_barcrest {tbl : Vector ChrRow 72} (h : s.cfg.chr = .barcrest tbl) :
    exec (.chrr offset) s = .next (barcrestRead tbl offset s) := by
  simp [exec, execChrr, h]

theorem exec_chrw_of_no_table (h : s.cfg.chr = .none) :
    exec (.chrw offset call) s = .next (raiseCharacteriserFault s) := by
  simp [exec, execChrw, h, fallbackWrite]

theorem exec_chrr_of_no_table (h : s.cfg.chr = .none) :
    exec (.chrr offset) s = .next (fallbackRead s) := by
  simp [exec, execChrr, h]

end variant

/-! ## The offsets of the Barcrest variant (R222 to R228) -/

section offset

variable (tbl : Vector ChrRow 72) (call : Byte) (s : State)

theorem barcrestWrite_zero :
    barcrestWrite tbl 0 call s = { s with chr := barcrestCall tbl call s.chr } := rfl

theorem barcrestWrite_two :
    barcrestWrite tbl 2 call s = { s with chr := lampCall call s.chr } := rfl

theorem barcrestWrite_elsewhere {offset : Byte} (h0 : offset ≠ 0) (h2 : offset ≠ 2) :
    barcrestWrite tbl offset call s = s :=
  (if_neg h0).trans (if_neg h2)

theorem barcrestRead_zero :
    barcrestRead tbl 0 s = s.replyChr (mainResponse tbl s.chr.currentColumn) := rfl

theorem barcrestRead_three :
    barcrestRead tbl 3 s = s.replyChr (lampResponse tbl s.chr.lampColumn) := rfl

theorem barcrestRead_elsewhere {offset : Byte} (h0 : offset ≠ 0) (h3 : offset ≠ 3) :
    barcrestRead tbl offset s = s.replyChr 0 :=
  (if_neg h0).trans (if_neg h3)

end offset

/-! ## The rows a table answers with (R226, R227) -/

section response

variable {tbl : Vector ChrRow 72} {row : ChrRow}

theorem mainResponse_of_row {c : BitVec 6} (h : tbl[c.toNat]? = some row) :
    mainResponse tbl c = row.response := by
  obtain ⟨_, rfl⟩ := Vector.getElem?_eq_some_iff.1 h
  rfl

theorem lampResponse_of_row {c : BitVec 3} (h : tbl[c.toNat + 64]? = some row) :
    lampResponse tbl c = row.response := by
  obtain ⟨_, rfl⟩ := Vector.getElem?_eq_some_iff.1 h
  rfl

/-- CHRR 0 replies the response of the row at the position. -/
theorem exec_chrr_zero_of_row {s : State} (hcfg : s.cfg.chr = .barcrest tbl)
    (hrow : tbl[s.chr.currentColumn.toNat]? = some row) :
    exec (.chrr 0) s = .next { s with chrReplies := s.chrReplies ++ [row.response] } := by
  rw [exec_chrr_of_barcrest 0 hcfg, barcrestRead_zero, mainResponse_of_row hrow, State.replyChr]

end response

/-! ## The lamp call (R224) -/

theorem lampCall_of_square {call : Byte} {n : BitVec 3} (u : ChrUnit)
    (h : n.toNat * n.toNat = call.toNat) : lampCall call u = { u with lampColumn := n } := by
  rw [lampCall, (lampColumnOfCall_eq_some call n).2 h, Option.getD_some]

theorem lampCall_of_no_square {call : Byte} (u : ChrUnit)
    (h : ∀ n : BitVec 3, n.toNat * n.toNat ≠ call.toNat) : lampCall call u = u := by
  rw [lampCall, (lampColumnOfCall_eq_none call).2 h, Option.getD_none]

/-! ## The scan and the position (R222, R223) -/

section scan

variable {tbl : Vector ChrRow 72} {start r : BitVec 6} {call : Byte} {u : ChrUnit}

theorem rowHasCall_iff {j : Nat} (hj : j < 72) : rowHasCall tbl j call ↔ tbl[j].call = call := by
  simp [rowHasCall, hj]

/-- The model's scan in the statements' terms: the least row at or after the start with the call. -/
theorem scanForward_some_rowHasCall (h : scanForward tbl start call = some r) :
    start.toNat ≤ r.toNat ∧ rowHasCall tbl r.toNat call ∧
      ∀ j, start.toNat ≤ j → j < r.toNat → ¬ rowHasCall tbl j call := by
  obtain ⟨hle, hrow, hleast⟩ := scanForward_eq_some tbl start r call h
  have hr := r.isLt
  refine ⟨hle, (rowHasCall_iff (by omega)).2 hrow, fun j hj hjr hcall => ?_⟩
  exact hleast ⟨j, by omega⟩ hj hjr ((rowHasCall_iff (by omega)).1 hcall)

theorem scanForward_none_rowHasCall (h : scanForward tbl start call = none) {j : Nat}
    (hstart : start.toNat ≤ j) (hlast : j ≤ 63) : ¬ rowHasCall tbl j call := fun hcall =>
  scanForward_eq_none tbl start call h ⟨j, by omega⟩ hstart ((rowHasCall_iff (by omega)).1 hcall)

theorem barcrestCall_zero :
    barcrestCall tbl 0 u = { u with currentColumn := 0, chrMode := .idle } := rfl

/-- A call other than the reset call scans. -/
theorem barcrestCall_of_ne_zero (hcall : call ≠ 0) :
    barcrestCall tbl call u = { u with
      currentColumn := (scanForward tbl u.currentColumn call).getD u.currentColumn
      chrMode := .scanning } := by
  rw [barcrestCall, chrModeNext, if_neg hcall, if_neg hcall]

theorem barcrestCall_of_match (hcall : call ≠ 0)
    (h : scanForward tbl u.currentColumn call = some r) :
    barcrestCall tbl call u = { u with currentColumn := r, chrMode := .scanning } := by
  rw [barcrestCall_of_ne_zero hcall, h, Option.getD_some]

theorem barcrestCall_of_no_match (hcall : call ≠ 0)
    (h : scanForward tbl u.currentColumn call = none) :
    barcrestCall tbl call u = { u with chrMode := .scanning } := by
  rw [barcrestCall_of_ne_zero hcall, h, Option.getD_none]

/-- A call other than the reset call moves the position forward or leaves it (R236). -/
theorem le_barcrestCall_currentColumn (hcall : call ≠ 0) :
    u.currentColumn.toNat ≤ (barcrestCall tbl call u).currentColumn.toNat := by
  cases h : scanForward tbl u.currentColumn call with
  | none => rw [barcrestCall_of_no_match hcall h]
  | some r =>
    rw [barcrestCall_of_match hcall h]
    exact (scanForward_some_rowHasCall h).1

end scan

/-! ## The position over a run (R223, R236) -/

/-- From a session of this table to `t`, which is of it too, the position does not go back. -/
def KeepsScanForward (tbl : Vector ChrRow 72) (s t : State) : Prop :=
  s.cfg.chr = .barcrest tbl →
    t.cfg.chr = .barcrest tbl ∧ s.chr.currentColumn.toNat ≤ t.chr.currentColumn.toNat

section run

variable {tbl : Vector ChrRow 72} {s t u : State} {i : Instr}

theorem KeepsScanForward.refl (s : State) : KeepsScanForward tbl s s := fun hs => ⟨hs, le_rfl⟩

theorem KeepsScanForward.trans (hst : KeepsScanForward tbl s t) (htu : KeepsScanForward tbl t u) :
    KeepsScanForward tbl s u := fun hs =>
  have ⟨ht, hle⟩ := hst hs
  (htu ht).imp_right hle.trans

/-- Of the Barcrest writes the reset call alone puts the position back. -/
theorem le_barcrestWrite_currentColumn {offset call : Byte} (h : ¬ (offset = 0 ∧ call = 0)) :
    s.chr.currentColumn.toNat ≤ (barcrestWrite tbl offset call s).chr.currentColumn.toNat := by
  by_cases h0 : offset = 0
  · subst h0
    exact le_barcrestCall_currentColumn fun hcall => h ⟨rfl, hcall⟩
  · by_cases h2 : offset = 2
    · subst h2
      exact le_rfl
    · rw [barcrestWrite_elsewhere tbl call s h0 h2]

theorem exec_keepsScanForward (hi : i ≠ .reset ∧ i ≠ .chrw 0 0) (h : exec i s = .next t) :
    KeepsScanForward tbl s t := by
  intro hs
  refine ⟨exec_keeps_cfg h ▸ hs, ?_⟩
  cases writes_of_exec h with
  | chrw offset call =>
    rw [← Host.Outcome.next.inj ((exec_chrw_of_barcrest offset call hs).symm.trans h)]
    exact le_barcrestWrite_currentColumn fun ⟨ho, hc⟩ => hi.2 (by rw [ho, hc])
  | chrr offset =>
    obtain ⟨v, hv⟩ := barcrestRead_replies s offset tbl
    rw [← Host.Outcome.next.inj ((exec_chrr_of_barcrest offset hs).symm.trans h), hv,
      replyChr_chr]
  | reset => exact absurd rfl hi.1
  | _ => exact le_rfl

end run

/-! ## The condition without a table (R230, R232, R233) -/

theorem raiseCharacteriserFault_eq_faultLoggedOnce (s : State) :
    raiseCharacteriserFault s = faultLoggedOnce s := rfl

theorem fallbackRead_eq (s : State) :
    fallbackRead s = { faultLoggedOnce s with
      chrReplies := s.chrReplies ++
        [Config.programMemory s.chrDraws (Config.cpuIndexRegister s.chrDraws)]
      chrDraws := s.chrDraws + 1 } := by
  obtain ⟨es, h⟩ := raiseCharacteriserFault_spec s
  rw [fallbackRead, ← raiseCharacteriserFault_eq_faultLoggedOnce, h]
  rfl

end Sys2Proof.Machine

namespace Sys2Proof.Claims

open Sys2Proof.Machine

/-! ## The statements -/

/-- Settles O24: the scan answers the least matching row, or none when no row matches. -/
theorem barcrestScanTakesFirstMatch : Obligations.BarcrestScanTakesFirstMatch := by
  intro s tbl call hcfg hcall
  rw [exec_chrw_of_barcrest 0 call hcfg, barcrestWrite_zero]
  cases hscan : scanForward tbl s.chr.currentColumn call with
  | none =>
    have hnone := fun j => scanForward_none_rowHasCall (j := j) hscan
    refine ⟨s.chr.currentColumn, by rw [barcrestCall_of_no_match hcall hscan], ?_, fun _ => rfl⟩
    exact fun ⟨j, hstart, hlast, hrow⟩ => absurd hrow (hnone j hstart hlast)
  | some r =>
    obtain ⟨hle, hrow, hleast⟩ := scanForward_some_rowHasCall hscan
    refine ⟨r, by rw [barcrestCall_of_match hcall hscan], fun _ => ⟨hle, hrow, hleast⟩,
      fun hnone => ?_⟩
    exact absurd hrow (hnone r.toNat hle (Nat.le_of_lt_succ r.isLt))

/-- Settles O25: the lamp call by whether its byte is a square, and the offsets with no effect. -/
theorem barcrestLampCallAndOtherOffsets : Obligations.BarcrestLampCallAndOtherOffsets := by
  intro s tbl call hcfg
  refine ⟨fun n hsquare => ?square, fun hsquare => ?noSquare, fun offset h0 h2 => ?elsewhere⟩
  case square =>
    rw [exec_chrw_of_barcrest 2 call hcfg, barcrestWrite_two, lampCall_of_square s.chr hsquare]
  case noSquare =>
    rw [exec_chrw_of_barcrest 2 call hcfg, barcrestWrite_two, lampCall_of_no_square s.chr hsquare]
  case elsewhere =>
    rw [exec_chrw_of_barcrest offset call hcfg, barcrestWrite_elsewhere tbl call s h0 h2]

/-- Settles O27, by induction on the run: each operation but RESET and the reset call keeps the table
and takes the position no further back. -/
theorem scanNeverGoesBack : Obligations.ScanNeverGoesBack := fun _ _ _ _ hcfg hops h =>
  (execAll_induction KeepsScanForward.refl .trans exec_keepsScanForward hops h hcfg).2

/-- Settles O23: the reset call, and the read of the row it leaves the position on. -/
theorem barcrestResetCall : Obligations.BarcrestResetCall := by
  intro s tbl hcfg
  refine ⟨{ s with chr := { s.chr with currentColumn := 0, chrMode := .idle } }, ?call, rfl, ?read⟩
  case call => rw [exec_chrw_of_barcrest 0 0 hcfg, barcrestWrite_zero, barcrestCall_zero]
  case read => exact exec_chrr_zero_of_row hcfg (Vector.getElem?_eq_getElem _)

/-- Settles O26: each offset replies its row's response, or 0 where there is none. -/
theorem barcrestReads : Obligations.BarcrestReads := by
  intro s tbl row hcfg
  refine ⟨exec_chrr_zero_of_row hcfg, fun hrow => ?lamp, fun offset h0 h3 => ?elsewhere⟩
  case lamp =>
    rw [exec_chrr_of_barcrest 3 hcfg, barcrestRead_three, lampResponse_of_row hrow, State.replyChr]
  case elsewhere =>
    rw [exec_chrr_of_barcrest offset hcfg, barcrestRead_elsewhere tbl s h0 h3, State.replyChr]

/-- Settles O28: without a table a write is the condition alone. -/
theorem fallbackWriteOnlyLogs : Obligations.FallbackWriteOnlyLogs := by
  intro s offset call hcfg
  rw [exec_chrw_of_no_table offset call hcfg, raiseCharacteriserFault_eq_faultLoggedOnce]

/-- Settles O29: without a table a read is the condition, one draw and the byte at X. -/
theorem fallbackReadGivesProgramByte : Obligations.FallbackReadGivesProgramByte := by
  intro s offset hcfg
  rw [exec_chrr_of_no_table offset hcfg, fallbackRead_eq]

end Sys2Proof.Claims

/-! # The BwB characteriser (45_characteriser_bwb.md)

First the write: its base access and the common scan, each by its cases. Then the read: the byte it
gives back, and whether it moves the counter on. Last what becomes of the counter over a run. -/

namespace Sys2Proof.Machine

open Sys2Proof.Claims

/-! ## CHRW and CHRR under the variant (44_characteriser_barcrest.md R220) -/

section variant

variable {s : State} {tables : BwbTables} (offset call : Byte)

theorem exec_chrw_of_bwb (h : s.cfg.chr = .bwb tables) :
    exec (.chrw offset call) s = .next (bwbWrite tables offset call s) := by
  simp [exec, execChrw, h]

theorem exec_chrr_of_bwb (h : s.cfg.chr = .bwb tables) :
    exec (.chrr offset) s = .next (bwbRead tables offset s) := by
  simp [exec, execChrr, h]

end variant

/-! ## The base access (R242, R243) -/

/-- The unit as the common scan of a write finds it: after the base access, at an offset of one. -/
def bwbAfterBase (offset call : Byte) (u : ChrUnit) : ChrUnit :=
  if offset.toNat % 64 = 0 then bwbBaseAccess call u else u

section base

variable {offset call : Byte} {u : ChrUnit}

theorem bwbAfterBase_of_base (h : offset.toNat % 64 = 0) :
    bwbAfterBase offset call u = bwbBaseAccess call u := if_pos h

theorem bwbAfterBase_of_not_base (h : offset.toNat % 64 ≠ 0) : bwbAfterBase offset call u = u :=
  if_neg h

theorem bwbAfterBase_writes (offset call : Byte) (u : ChrUnit) :
    ∃ st c n, bwbAfterBase offset call u =
      { u with chrState := st, chrCounter := c, initCol := n } := by
  unfold bwbAfterBase
  split
  · exact ⟨_, _, _, rfl⟩
  · exact ⟨u.chrState, u.chrCounter, u.initCol, rfl⟩

theorem bwbAfterBase_bwbReturn : (bwbAfterBase offset call u).bwbReturn = u.bwbReturn := by
  obtain ⟨st, c, n, h⟩ := bwbAfterBase_writes offset call u
  rw [h]

theorem bwbBaseAccess_of_uninit (h : u.chrState = .uninit) :
    bwbBaseAccess call u = { u with
      chrState := .running
      chrCounter := 0
      initCol := if call = 0 then u.initCol + 1 else 0 } := by
  rw [bwbBaseAccess, baseAccessNext, if_pos h]

theorem bwbBaseAccess_of_initialised (h : u.chrState ≠ .uninit) :
    bwbBaseAccess call u = { u with initCol := if call = 0 then u.initCol + 1 else 0 } := by
  rw [bwbBaseAccess, baseAccessNext, if_neg h]

/-- A base access puts the counter back to 0 or leaves it. -/
theorem bwbAfterBase_chrCounter_le : (bwbAfterBase offset call u).chrCounter ≤ u.chrCounter := by
  by_cases hbase : offset.toNat % 64 = 0
  · rw [bwbAfterBase_of_base hbase]
    by_cases huninit : u.chrState = .uninit
    · rw [bwbBaseAccess_of_uninit huninit]
      exact Fin.zero_le _
    · rw [bwbBaseAccess_of_initialised huninit]
  · rw [bwbAfterBase_of_not_base hbase]

end base

/-! ## The common scan (R244 to R246) -/

section scan

variable {tables : BwbTables} {call v : Byte} {x r : Nat} {s : State}

theorem commonCallIndex_eq_none (h : ∀ j : Nat, tables.commonCall[j]? ≠ some call) :
    commonCallIndex tables call = none := by
  rw [commonCallIndex, List.findIdx?_eq_none_iff]
  intro b hb
  obtain ⟨j, hj⟩ := List.mem_iff_getElem?.1 hb
  rw [Vector.getElem?_toList] at hj
  exact beq_eq_false_iff_ne.2 fun hbc => h j (hbc ▸ hj)

theorem commonCallIndex_eq_some (hx : tables.commonCall[x]? = some call)
    (hfirst : ∀ j : Nat, j < x → tables.commonCall[j]? ≠ some call) :
    commonCallIndex tables call = some x := by
  obtain ⟨hlt, hcall⟩ := Vector.getElem?_eq_some_iff.1 hx
  rw [commonCallIndex, List.findIdx?_eq_some_iff_getElem]
  refine ⟨by simpa using hlt, by simpa using hcall, fun j hj hjcall => hfirst j hj ?_⟩
  exact Vector.getElem?_eq_some_iff.2 ⟨hj.trans hlt, by simpa using hjcall⟩

/-- An unmatched call draws the value and keeps the return index. -/
theorem bwbScan_of_no_match (h : ∀ j : Nat, tables.commonCall[j]? ≠ some call) :
    bwbScan tables call s = { s with
      chr := { s.chr with chrValue := Config.bwbNoise s.chrDraws }
      chrDraws := s.chrDraws + 1 } := by
  simp [bwbScan, commonCallIndex_eq_none h, bwbNoiseCall, State.drawnChr]

/-- The first matching entry answers, entry 0 after setting the return index to 0. -/
theorem bwbScan_of_first_match (hx : tables.commonCall[x]? = some call)
    (hfirst : ∀ j : Nat, j < x → tables.commonCall[j]? ≠ some call) :
    bwbScan tables call s = bwbRespond tables (if x = 0 then 0 else s.chr.bwbReturn) s := by
  simp [bwbScan, commonCallIndex_eq_some hx hfirst]

theorem bwbRespond_of_response (h : tables.commonResp[r]? = some v) :
    bwbRespond tables r s = { s with chr := { s.chr with chrValue := v, bwbReturn := r + 1 } } := by
  obtain ⟨hlt, rfl⟩ := Vector.getElem?_eq_some_iff.1 h
  exact dif_pos hlt

theorem bwbRespond_of_past_end (h : 4 < r) :
    bwbRespond tables r s = { s with
      chr := { s.chr with chrValue := Config.bwbPastEnd s.chrDraws, bwbReturn := r + 1 }
      chrDraws := s.chrDraws + 1 } :=
  dif_neg (Nat.not_lt.2 h)

theorem bwbRespond_bwbReturn : (bwbRespond tables r s).chr.bwbReturn = r + 1 := by
  unfold bwbRespond
  split <;> rfl

/-- The scan writes the value, the return index and the draw count alone. -/
theorem bwbScan_writes_value :
    ∃ v r n, bwbScan tables call s = { s with
      chr := { s.chr with chrValue := v, bwbReturn := r }, chrDraws := n } := by
  obtain ⟨u, n, h⟩ := bwbScan_writes s call tables
  obtain ⟨v, r, hchr⟩ := bwbScan_chr tables call s
  have hu : u = { s.chr with chrValue := v, bwbReturn := r } := by rw [← hchr, h]
  exact ⟨v, r, s.chrDraws + n, by rw [h, hu]⟩

end scan

/-! ## The write (R241) -/

section write

variable {tables : BwbTables} {offset call : Byte} {s : State}

theorem bwbWrite_eq_scan :
    bwbWrite tables offset call s =
      bwbScan tables call { s with chr := bwbAfterBase offset call s.chr } := by
  simp only [bwbWrite, bwbAfterBase, isBaseOffset_iff]
  split <;> rfl

/-- A write does to the unit what its base access does, and besides writes the value and the return
index. -/
theorem bwbWrite_writes_value (tables : BwbTables) (offset call : Byte) (s : State) :
    ∃ v r n, bwbWrite tables offset call s = { s with
      chr := { bwbAfterBase offset call s.chr with chrValue := v, bwbReturn := r }
      chrDraws := n } := by
  rw [bwbWrite_eq_scan]
  exact bwbScan_writes_value

/-- A write leaves alone all but five fields of the unit and the draw count. -/
theorem bwbWrite_frame {t : State} (ht : bwbWrite tables offset call s = t) :
    t = { s with
      chrDraws := t.chrDraws
      chr := { s.chr with
        chrState := t.chr.chrState
        chrCounter := t.chr.chrCounter
        initCol := t.chr.initCol
        bwbReturn := t.chr.bwbReturn
        chrValue := t.chr.chrValue } } := by
  obtain ⟨st, c, n, hbase⟩ := bwbAfterBase_writes offset call s.chr
  obtain ⟨v, r, d, hwrite⟩ := bwbWrite_writes_value tables offset call s
  rw [← ht, hwrite, hbase]

end write

/-! ## The counter moves on (R250) -/

section advance

variable {u : ChrUnit}

theorem bwbAdvance_of_lt {c : Fin 36} (hc : c.val = u.chrCounter.val + 1) :
    bwbAdvance u = { u with
      chrCounter := c
      chrState := if c.val = 35 then .exhausted else u.chrState } := by
  have hlt : u.chrCounter.val < 35 := by omega
  simp [bwbAdvance, counterNext, hlt, ← hc]

theorem bwbAdvance_of_ceiling (h : u.chrCounter.val = 35) : bwbAdvance u = u := by
  simp [bwbAdvance, counterNext, h]

theorem bwbAdvance_chrCounter (u : ChrUnit) :
    (bwbAdvance u).chrCounter.val = min (u.chrCounter.val + 1) 35 := by
  by_cases h : u.chrCounter.val = 35
  · rw [bwbAdvance_of_ceiling h]
    omega
  · rw [bwbAdvance_of_lt (c := ⟨u.chrCounter.val + 1, by omega⟩) rfl]
    dsimp only
    omega

@[simp] theorem bwbAdvance_chrValue (u : ChrUnit) : (bwbAdvance u).chrValue = u.chrValue := rfl

/-- The counter gets to its ceiling only together with EXHAUSTED. -/
theorem bwbAdvance_exhausted (hu : u.chrCounter.val = 35 → u.chrState = .exhausted)
    (h : (bwbAdvance u).chrCounter.val = 35) : (bwbAdvance u).chrState = .exhausted := by
  by_cases hceiling : u.chrCounter.val = 35
  · rw [bwbAdvance_of_ceiling hceiling]
    exact hu hceiling
  · rw [bwbAdvance_of_lt (c := ⟨u.chrCounter.val + 1, by omega⟩) rfl] at h ⊢
    exact if_pos h

end advance

/-! ## The read (R248 to R251) -/

/-- The byte a read of offset 0 gives back: the checkpoint's row, and elsewhere the last value. -/
def bwbReply (tables : BwbTables) (u : ChrUnit) : Byte :=
  (checkpointResponse tables u.chrCounter).getD u.chrValue

section read

variable {tables : BwbTables} {s : State} {u : ChrUnit}

theorem checkpointResponse_of_row {k : Nat} {v : Byte} {counter : Fin 36}
    (hc : counter.val = 7 * k + 6) (hv : tables.gameResp[k]? = some v) :
    checkpointResponse tables counter = some v := by
  obtain ⟨hk, rfl⟩ := Vector.getElem?_eq_some_iff.1 hv
  have hmem : counter.val ∈ checkpoints := by
    rw [hc]
    interval_cases k <;> decide
  have hrow : (counter.val + 1) / 7 - 1 = k := by omega
  simp [checkpointResponse, hmem, hrow]

theorem checkpointResponse_eq_none {counter : Fin 36} (h : counter.val % 7 ≠ 6) :
    checkpointResponse tables counter = none := by
  refine if_neg fun hmem => h ?_
  simp only [checkpoints, List.mem_cons, List.not_mem_nil, or_false] at hmem
  omega

theorem bwbReply_of_row {k : Nat} {v : Byte} (hc : u.chrCounter.val = 7 * k + 6)
    (hv : tables.gameResp[k]? = some v) : bwbReply tables u = v := by
  rw [bwbReply, checkpointResponse_of_row hc hv, Option.getD_some]

theorem bwbReply_of_no_checkpoint (h : u.chrCounter.val % 7 ≠ 6) :
    bwbReply tables u = u.chrValue := by
  rw [bwbReply, checkpointResponse_eq_none h, Option.getD_none]

theorem bwbRead_elsewhere {offset : Byte} (h : offset ≠ 0) :
    bwbRead tables offset s = s.replyChr s.chr.chrValue := if_neg h

/-- A checkpoint read that does not move the counter. -/
theorem bwbRead_zero_of_held (hc : s.chr.chrCounter.val % 7 = 6)
    (hadv : s.cfg.bwbCheckpointAdvances = false) :
    bwbRead tables 0 s = s.replyChr (bwbReply tables s.chr) := by
  have hk : s.chr.chrCounter.val / 7 < 5 := by omega
  have hcheckpoint : s.chr.chrCounter.val = 7 * (s.chr.chrCounter.val / 7) + 6 := by omega
  have hrow := checkpointResponse_of_row hcheckpoint
    (Vector.getElem?_eq_getElem (xs := tables.gameResp) hk)
  simp [bwbRead, bwbReply, hrow, hadv]

/-- Every other read of offset 0 moves the counter on, up to the ceiling. -/
theorem bwbRead_zero_of_moving
    (h : s.chr.chrCounter.val % 7 ≠ 6 ∨ s.cfg.bwbCheckpointAdvances = true) :
    bwbRead tables 0 s =
      State.replyChr { s with chr := bwbAdvance s.chr } (bwbReply tables s.chr) := by
  cases hv : checkpointResponse tables s.chr.chrCounter with
  | none => simp [bwbRead, bwbReply, hv]
  | some v =>
    have hadv := h.resolve_left fun hc => by simp [checkpointResponse_eq_none hc] at hv
    simp [bwbRead, bwbReply, hv, hadv]

end read

/-! ## The counter over a run, without the switch (R252) -/

/-- With the switch off, a counter of at most 6 in `s` is one of at most 6 in `t`, the switch still
off. -/
def StaysAtFirstCheckpoint (s t : State) : Prop :=
  s.cfg.bwbCheckpointAdvances = false → s.chr.chrCounter.val ≤ 6 →
    t.cfg.bwbCheckpointAdvances = false ∧ t.chr.chrCounter.val ≤ 6

section literal

variable {s t u : State} {i : Instr} {offset call : Byte}

theorem StaysAtFirstCheckpoint.refl (s : State) : StaysAtFirstCheckpoint s s := fun hadv hc =>
  ⟨hadv, hc⟩

theorem StaysAtFirstCheckpoint.trans (hst : StaysAtFirstCheckpoint s t)
    (htu : StaysAtFirstCheckpoint t u) : StaysAtFirstCheckpoint s u := fun hadv hc =>
  have ⟨hadv', hc'⟩ := hst hadv hc
  htu hadv' hc'

theorem raiseCharacteriserFault_chrCounter (s : State) :
    (raiseCharacteriserFault s).chr.chrCounter = s.chr.chrCounter := by
  obtain ⟨es, h⟩ := raiseCharacteriserFault_spec s
  rw [h]

theorem barcrestWrite_chrCounter (tbl : Vector ChrRow 72) (offset call : Byte) (s : State) :
    (barcrestWrite tbl offset call s).chr.chrCounter = s.chr.chrCounter := by
  unfold barcrestWrite
  split
  · rfl
  · split <;> rfl

/-- Under no variant does CHRW move the counter on. -/
theorem exec_chrw_chrCounter_le (h : exec (.chrw offset call) s = .next t) :
    t.chr.chrCounter ≤ s.chr.chrCounter := by
  cases hchr : s.cfg.chr with
  | none =>
    obtain rfl := Host.Outcome.next.inj ((exec_chrw_of_no_table offset call hchr).symm.trans h)
    exact (raiseCharacteriserFault_chrCounter s).le
  | barcrest tbl =>
    obtain rfl := Host.Outcome.next.inj ((exec_chrw_of_barcrest offset call hchr).symm.trans h)
    exact (barcrestWrite_chrCounter tbl offset call s).le
  | bwb tables =>
    obtain rfl := Host.Outcome.next.inj ((exec_chrw_of_bwb offset call hchr).symm.trans h)
    obtain ⟨v, r, n, hwrite⟩ := bwbWrite_writes_value tables offset call s
    rw [hwrite]
    exact bwbAfterBase_chrCounter_le

/-- The first checkpoint holds the counter: a read moves it on only below 6. -/
theorem bwbRead_chrCounter_le_six {tables : BwbTables}
    (hadv : s.cfg.bwbCheckpointAdvances = false) (hc : s.chr.chrCounter.val ≤ 6) :
    (bwbRead tables offset s).chr.chrCounter.val ≤ 6 := by
  by_cases ho : offset = 0
  · subst ho
    by_cases hsix : s.chr.chrCounter.val % 7 = 6
    · rw [bwbRead_zero_of_held hsix hadv]
      exact hc
    · rw [bwbRead_zero_of_moving (.inl hsix), replyChr_chr, bwbAdvance_chrCounter]
      omega
  · rw [bwbRead_elsewhere ho]
    exact hc

theorem exec_chrr_chrCounter_le_six (hadv : s.cfg.bwbCheckpointAdvances = false)
    (hc : s.chr.chrCounter.val ≤ 6) (h : exec (.chrr offset) s = .next t) :
    t.chr.chrCounter.val ≤ 6 := by
  cases hchr : s.cfg.chr with
  | none =>
    obtain rfl := Host.Outcome.next.inj ((exec_chrr_of_no_table offset hchr).symm.trans h)
    exact (raiseCharacteriserFault_chrCounter s).symm ▸ hc
  | barcrest tbl =>
    obtain rfl := Host.Outcome.next.inj ((exec_chrr_of_barcrest offset hchr).symm.trans h)
    obtain ⟨v, hv⟩ := barcrestRead_replies s offset tbl
    exact hv ▸ hc
  | bwb tables =>
    obtain rfl := Host.Outcome.next.inj ((exec_chrr_of_bwb offset hchr).symm.trans h)
    exact bwbRead_chrCounter_le_six hadv hc

/-- RESET puts the counter back to 0; of the others CHRW and CHRR alone reach it. -/
theorem exec_staysAtFirstCheckpoint (h : exec i s = .next t) : StaysAtFirstCheckpoint s t := by
  intro hadv hc
  refine ⟨exec_keeps_cfg h ▸ hadv, ?_⟩
  cases writes_of_exec h with
  | chrw => exact Nat.le_trans (exec_chrw_chrCounter_le h) hc
  | chrr => exact exec_chrr_chrCounter_le_six hadv hc h
  | reset => exact Nat.zero_le 6
  | _ => exact hc

end literal

/-! ## Reads of offset 0, with the switch (R249, R250) -/

section advancing

variable {tables : BwbTables} {s : State} {u : ChrUnit}

/-- Under the switch every read of offset 0 replies and moves the counter on. -/
theorem exec_chrr_zero_of_advancing (hcfg : s.cfg.chr = .bwb tables)
    (hadv : s.cfg.bwbCheckpointAdvances = true) :
    exec (.chrr 0) s = .next { s with
      chrReplies := s.chrReplies ++ [bwbReply tables s.chr], chr := bwbAdvance s.chr } := by
  rw [exec_chrr_of_bwb 0 hcfg, bwbRead_zero_of_moving (.inr hadv), State.replyChr]

/-- Read `j` of a run finds the unit moved on `j` times. -/
theorem execAll_chrr_zero_of_advancing (hcfg : s.cfg.chr = .bwb tables)
    (hadv : s.cfg.bwbCheckpointAdvances = true) (k : Nat) :
    execAll (List.replicate k (.chrr 0)) s = .next { s with
      chrReplies := s.chrReplies ++
        (List.range k).map fun j => bwbReply tables (bwbAdvance^[j] s.chr)
      chr := bwbAdvance^[k] s.chr } := by
  induction k generalizing s with
  | zero => simp [execAll]
  | succ k ih =>
    rw [List.replicate_succ, execAll_cons_of_next _ (exec_chrr_zero_of_advancing hcfg hadv), ih]
    · simp [List.range_succ_eq_map, Function.comp_def]
    · exact hcfg
    · exact hadv

theorem iterate_bwbAdvance_chrCounter (hu : u.chrCounter = 0) (k : Nat) :
    (bwbAdvance^[k] u).chrCounter.val = min k 35 := by
  induction k with
  | zero => simp [hu]
  | succ k ih =>
    rw [Function.iterate_succ_apply', bwbAdvance_chrCounter, ih]
    omega

theorem iterate_bwbAdvance_chrValue (k : Nat) :
    (bwbAdvance^[k] u).chrValue = u.chrValue :=
  Function.Iterate.rec (fun u' : ChrUnit => u'.chrValue = u.chrValue) rfl
    (fun u' h => (bwbAdvance_chrValue u').trans h) k

theorem iterate_bwbAdvance_exhausted (hu : u.chrCounter = 0) {k : Nat} (hk : 35 ≤ k) :
    (bwbAdvance^[k] u).chrState = .exhausted := by
  have hceiling : (bwbAdvance^[k] u).chrCounter.val = 35 := by
    rw [iterate_bwbAdvance_chrCounter hu]
    omega
  have hstart : u.chrCounter.val = 35 → u.chrState = .exhausted := fun h => by simp [hu] at h
  exact Function.Iterate.rec
    (fun u' : ChrUnit => u'.chrCounter.val = 35 → u'.chrState = .exhausted)
    hstart (fun _ => bwbAdvance_exhausted) k hceiling

/-- A counter of `min j 35` is at a checkpoint exactly when `j` is. -/
theorem bwbReply_of_counter {j : Nat} (h : u.chrCounter.val = min j 35) :
    bwbReply tables u =
      if j = 6 then tables.gameResp[0]
      else if j = 13 then tables.gameResp[1]
      else if j = 20 then tables.gameResp[2]
      else if j = 27 then tables.gameResp[3]
      else if j = 34 then tables.gameResp[4]
      else u.chrValue := by
  have hat {n : Nat} (hn : n < 35) : u.chrCounter.val = n ↔ j = n := by omega
  simp only [bwbReply, checkpointResponse_eq, hat, Nat.reduceLT,
    apply_ite (Option.getD · u.chrValue), Option.getD_some, Option.getD_none]

end advancing

end Sys2Proof.Machine

namespace Sys2Proof.Claims

open Sys2Proof.Machine

/-! ## The statements -/

/-- Settles O31: the base access by the offset and by UNINIT, then the scan by its match. -/
theorem bwbWriteResult : Obligations.BwbWriteResult := by
  intro s tables offset call hcfg
  obtain ⟨v, r, n, hwrite⟩ := bwbWrite_writes_value tables offset call s
  refine ⟨_, exec_chrw_of_bwb offset call hcfg, bwbWrite_frame rfl, fun hbase => ?base,
    fun hbase => ?elsewhere, fun hnone => ?unmatched, fun x r hx hfirst hr => ?matched⟩
  case base =>
    rw [hwrite, bwbAfterBase_of_base hbase]
    refine ⟨fun huninit => ?_, fun hinit => ?_, rfl⟩
    · rw [bwbBaseAccess_of_uninit huninit]
      exact ⟨rfl, rfl⟩
    · rw [bwbBaseAccess_of_initialised hinit]
      exact ⟨rfl, rfl⟩
  case elsewhere =>
    rw [hwrite, bwbAfterBase_of_not_base hbase]
    exact ⟨rfl, rfl, rfl⟩
  case unmatched =>
    rw [bwbWrite_eq_scan, bwbScan_of_no_match hnone]
    exact ⟨bwbAfterBase_bwbReturn, rfl, rfl⟩
  case matched =>
    rw [bwbWrite_eq_scan, bwbScan_of_first_match hx hfirst, bwbAfterBase_bwbReturn, ← hr]
    refine ⟨bwbRespond_bwbReturn, fun v hv => ?_, fun hpast => ?_⟩
    · rw [bwbRespond_of_response hv]
      exact ⟨rfl, rfl⟩
    · rw [bwbRespond_of_past_end hpast]
      exact ⟨rfl, rfl⟩

/-- Settles O32: a read by its offset, then by whether the counter is at a checkpoint, at another
value or at the ceiling. -/
theorem bwbReadResult : Obligations.BwbReadResult := by
  intro s tables hcfg
  refine ⟨fun offset ho => ?elsewhere,
    fun k v hk hv => ⟨fun hadv => ?held, fun hadv c hc => ?moved⟩,
    fun hne c hc => ?counted, fun hceiling => ?ceiling⟩
  case elsewhere => rw [exec_chrr_of_bwb offset hcfg, bwbRead_elsewhere ho, State.replyChr]
  case held =>
    rw [exec_chrr_of_bwb 0 hcfg, bwbRead_zero_of_held (by omega) hadv, bwbReply_of_row hk hv,
      State.replyChr]
  case moved =>
    rw [exec_chrr_zero_of_advancing hcfg hadv, bwbReply_of_row hk hv, bwbAdvance_of_lt hc]
  case counted =>
    rw [exec_chrr_of_bwb 0 hcfg, bwbRead_zero_of_moving (.inl hne), bwbReply_of_no_checkpoint hne,
      bwbAdvance_of_lt hc, State.replyChr]
  case ceiling =>
    have hne : s.chr.chrCounter.val % 7 ≠ 6 := by omega
    rw [exec_chrr_of_bwb 0 hcfg, bwbRead_zero_of_moving (.inl hne), bwbReply_of_no_checkpoint hne,
      bwbAdvance_of_ceiling hceiling, State.replyChr]

/-- Settles O33, by induction on the run: no operation takes the counter past the first
checkpoint. -/
theorem bwbCounterStopsAtFirstCheckpoint : Obligations.BwbCounterStopsAtFirstCheckpoint :=
  fun _ _ _ hadv hc h =>
    (execAll_induction (allowed := fun _ => True) StaysAtFirstCheckpoint.refl .trans
      (fun _ => exec_staysAtFirstCheckpoint) (fun _ _ => trivial) h hadv hc).2

/-- Settles O34: each read moves the unit on once, so read `j` replies from a counter of
`min j 35`. -/
theorem bwbCheckpointsReachedWhenAdvancing : Obligations.BwbCheckpointsReachedWhenAdvancing := by
  intro s tables k hcfg hadv hzero
  refine ⟨_, execAll_chrr_zero_of_advancing hcfg hadv k, iterate_bwbAdvance_chrCounter hzero k,
    iterate_bwbAdvance_exhausted hzero, ?replies⟩
  case replies =>
    refine congrArg (s.chrReplies ++ ·) (List.map_congr_left fun j _ => ?_)
    rw [bwbReply_of_counter (iterate_bwbAdvance_chrCounter hzero j), iterate_bwbAdvance_chrValue]

end Sys2Proof.Claims

/-! # The reel and meter multiplexer, the tick and the triac port (46_reel_meter_mux.md)

First the number of a packed word, the two latches and the table of each reel mode; then the events
every operation emits, of the mains line or of a meter for TICK alone; then the statements. -/

namespace Sys2Proof

/-! ## The number of an operation word (30_encoding.md R100) -/

theorem packWord_toNat (op sel : BitVec 4) (off dat : Byte) :
    (packWord op sel off dat).toNat =
      0x100000 * op.toNat + 0x10000 * sel.toNat + 0x100 * off.toNat + dat.toNat := by
  have append_toNat {m n : Nat} (x : BitVec m) (y : BitVec n) :
      (x ++ y).toNat = 2 ^ n * x.toNat + y.toNat := by
    rw [BitVec.toNat_append, ← Nat.shiftLeft_add_eq_or_of_lt y.isLt, Nat.shiftLeft_eq, Nat.mul_comm]
  simp only [packWord, append_toNat]
  omega

theorem encode_meterw_toNat (data : Byte) :
    (encode (.meterw data)).toNat = 0x700000 + data.toNat :=
  packWord_toNat 7 0 0 data

theorem encode_triacw_toNat (data : Byte) :
    (encode (.triacw data)).toNat = 0x710000 + data.toNat :=
  packWord_toNat 7 1 0 data

end Sys2Proof

namespace Sys2Proof.Machine

open Sys2Proof.Claims

/-! ## The two latches (46_reel_meter_mux.md R261, R262) -/

theorem exec_meterw_eq (data : Byte) (s : State) :
    exec (.meterw data) s = .next { s with reel := { s.reel with mmtrData := data } } := rfl

theorem exec_triacw_eq (data : Byte) (s : State) :
    exec (.triacw data) s = .next { s with reel := { s.reel with triacData := data } } := rfl

/-! ## The table of each reel mode (46_reel_meter_mux.md R265 to R267) -/

section table

variable {cfg : Cfg} (flutter : Bool) (d : Byte)

theorem modeUpdate_of_standardReel (h : cfg.reelMode = .standardReel) :
    modeUpdate cfg flutter d = some (d, [], flutter) := by
  simp [modeUpdate, h]

theorem modeUpdate_of_fiveReel8To5 (h : cfg.reelMode = .fiveReel8To5) :
    modeUpdate cfg flutter d =
      some (d &&& 0x56, [.stepperUpdate cfg.reel5Index (reelNibble d)], flutter) := by
  simp [modeUpdate, h]

theorem modeUpdate_of_flutterbox (h : cfg.reelMode = .flutterbox) :
    modeUpdate cfg flutter d = some (d &&& 0x7F, [], d.getLsbD 7) := by
  simp [modeUpdate, h]

/-- What a table gives beside the meters are updates of a stepper. -/
theorem modeUpdate_steppers {flutter flutter' : Bool} {d meters : Byte} {steppers : List Event}
    (h : modeUpdate cfg flutter d = some (meters, steppers, flutter')) :
    ∀ e ∈ steppers, ∃ index nibble, e = .stepperUpdate index nibble := by
  unfold modeUpdate at h
  split at h
  case h_1 | h_2 | h_3 =>
    cases h
    simp
  all_goals cases h

end table

/-! ## The meter-drive byte (30_encoding.md R119) -/

/-- Bits 7, 5, 3, 0 as a number (46_reel_meter_mux.md R266). -/
theorem reelNibble_toNat (d : Byte) :
    (reelNibble d).toNat = (d.getLsbD 0).toNat + 2 * (d.getLsbD 3).toNat +
      4 * (d.getLsbD 5).toNat + 8 * (d.getLsbD 7).toNat := by
  have nibble_toNat : ∀ b0 b3 b5 b7 : Bool,
      (BitVec.ofBool b7 ++ BitVec.ofBool b5 ++ BitVec.ofBool b3 ++ BitVec.ofBool b0).toNat =
        b0.toNat + 2 * b3.toNat + 4 * b5.toNat + 8 * b7.toNat := by decide
  rw [reelNibble_eq]
  exact nibble_toNat _ _ _ _

theorem meterPulses_eq_eightMeters (m : Byte) : meterPulses m = eightMeters m := meterPulses_eq m

/-- The meters under FIVE_REEL_8TO5 see bits 1, 2, 4, 6 alone (46_reel_meter_mux.md R266). -/
theorem meterPulses_and_0x56 (d : Byte) :
    meterPulses (d &&& 0x56) =
      [.meterPulse 0 false, .meterPulse 1 (d.getLsbD 1), .meterPulse 2 (d.getLsbD 2),
        .meterPulse 3 false, .meterPulse 4 (d.getLsbD 4), .meterPulse 5 false,
        .meterPulse 6 (d.getLsbD 6), .meterPulse 7 false] := by
  simp [meterPulses_eq]

/-- The meters under FLUTTERBOX see the byte without bit 7 (46_reel_meter_mux.md R267). -/
theorem and_0x7F_eq_of_toNat_eq_mod {d m : Byte} (h : m.toNat = d.toNat % 128) :
    d &&& 0x7F = m := by
  apply BitVec.eq_of_toNat_eq
  calc (d &&& 0x7F).toNat = d.toNat &&& (2 ^ 7 - 1) := BitVec.toNat_and d 0x7F
    _ = d.toNat % 2 ^ 7 := Nat.and_two_pow_sub_one_eq_mod _ _
    _ = m.toNat := h.symm

theorem countP_isMains_meterPulses (m : Byte) : (meterPulses m).countP isMains = 0 := rfl

theorem countP_isMeter_meterPulses (m : Byte) : (meterPulses m).countP isMeter = 8 := rfl

/-! ## Events that are neither of the mains line nor of a meter (46_reel_meter_mux.md R268) -/

/-- No event of the mains line and none of a meter. -/
def TickFree (es : List Event) : Prop := ∀ e ∈ es, isMains e = false ∧ isMeter e = false

section tickFree

variable {es : List Event}

theorem tickFree_nil : TickFree [] := by simp [TickFree]

theorem TickFree.countP_isMains (h : TickFree es) : es.countP isMains = 0 :=
  List.countP_eq_zero.2 fun e he => by simp [(h e he).1]

theorem TickFree.countP_isMeter (h : TickFree es) : es.countP isMeter = 0 :=
  List.countP_eq_zero.2 fun e he => by simp [(h e he).2]

theorem tickFree_alphaEvents (level : Bool) (u : LedUnit) : TickFree (alphaEvents level u) := by
  unfold alphaEvents
  split <;> simp [TickFree, isMains, isMeter]

theorem tickFree_of_steppers (h : ∀ e ∈ es, ∃ index nibble, e = .stepperUpdate index nibble) :
    TickFree es := by
  intro e he
  obtain ⟨index, nibble, rfl⟩ := h e he
  exact ⟨rfl, rfl⟩

/-- The characteriser's condition logs, and does nothing to the mains line or the meters. -/
theorem tickFree_of_fault (h : es = [] ∨ es = [.log .characteriserFault]) : TickFree es := by
  obtain rfl | rfl := h <;> simp [TickFree, isMains, isMeter]

end tickFree

/-! ## The events of each operation (10_state.md R66) -/

section events

variable {i : Instr} {s t : State}

/-- CHRW emits through the condition of NONE alone (44_characteriser_barcrest.md R230). -/
theorem exec_chrw_emits_tickFree {offset call : Byte} (h : exec (.chrw offset call) s = .next t) :
    ∃ es, TickFree es ∧ t.out = s.out ++ es := by
  cases hcfg : s.cfg.chr with
  | none =>
    obtain ⟨es, hes, hraise⟩ := raiseCharacteriserFault_events s
    obtain rfl := Host.Outcome.next.inj ((exec_chrw_of_no_table offset call hcfg).symm.trans h)
    exact ⟨es, tickFree_of_fault hes, by rw [hraise]⟩
  | barcrest tbl =>
    obtain ⟨u, hu⟩ := barcrestWrite_writes s offset call tbl
    obtain rfl := Host.Outcome.next.inj ((exec_chrw_of_barcrest offset call hcfg).symm.trans h)
    exact ⟨[], tickFree_nil, by simp [hu]⟩
  | bwb tables =>
    obtain ⟨u, n, hu⟩ := bwbWrite_writes s offset call tables
    obtain rfl := Host.Outcome.next.inj ((exec_chrw_of_bwb offset call hcfg).symm.trans h)
    exact ⟨[], tickFree_nil, by simp [hu]⟩

/-- CHRR emits in its course of NONE alone (44_characteriser_barcrest.md R232). -/
theorem exec_chrr_emits_tickFree {offset : Byte} (h : exec (.chrr offset) s = .next t) :
    ∃ es, TickFree es ∧ t.out = s.out ++ es := by
  obtain ⟨u, hu, hcourse⟩ := exec_chrr_courses offset s
  obtain rfl := Host.Outcome.next.inj (hu.symm.trans h)
  cases hcourse with
  | reply v => exact ⟨[], tickFree_nil, by simp⟩
  | advance tables hcfg ho v => exact ⟨[], tickFree_nil, by simp⟩
  | fault hcfg es hes v => exact ⟨es, tickFree_of_fault hes, rfl⟩

/-- No operation but TICK moves the mains line or a meter (46_reel_meter_mux.md R270). -/
theorem exec_emits_tickFree (hi : i ≠ .tick) (h : exec i s = .next t) :
    ∃ es, TickFree es ∧ t.out = s.out ++ es := by
  cases writes_of_exec h with
  | tick => exact absurd rfl hi
  | alphaclk level =>
    have ht := Host.Outcome.next.inj ((exec_alphaclk_eq level s).symm.trans h)
    exact ⟨_, tickFree_alphaEvents level s.leds, (congrArg State.out ht).symm⟩
  | chrw => exact exec_chrw_emits_tickFree h
  | chrr => exact exec_chrr_emits_tickFree h
  | _ => exact ⟨[], tickFree_nil, (List.append_nil _).symm⟩

/-- The level of the mains line is written by TICK and by RESET alone (10_state.md R61). -/
theorem exec_keeps_signal50Hz (htick : i ≠ .tick) (hreset : i ≠ .reset) (h : exec i s = .next t) :
    t.reel.signal50Hz = s.reel.signal50Hz := by
  cases writes_of_exec h with
  | tick => exact absurd rfl htick
  | reset => exact absurd rfl hreset
  | _ => rfl

/-- A TICK that completes found a table, and emits the mains line, that table's steppers and the eight
meters (46_reel_meter_mux.md R264). -/
theorem exec_tick_emits (h : exec .tick s = .next t) :
    ∃ steppers meters, TickFree steppers ∧
      t.out = s.out ++ (.mainsLine (!s.reel.signal50Hz) :: steppers ++ meterPulses meters) ∧
      t.reel.signal50Hz = !s.reel.signal50Hz := by
  cases hm : modeUpdate s.cfg s.reel.flutter s.reel.mmtrData with
  | none =>
    rw [exec_tick_of_no_table hm] at h
    cases h
  | some r =>
    obtain ⟨meters, steppers, flutter⟩ := r
    obtain rfl := Host.Outcome.next.inj ((exec_tick_of_table hm).symm.trans h)
    exact ⟨steppers, meters, tickFree_of_steppers (modeUpdate_steppers hm), rfl, rfl⟩

/-- Of a tick's events one is of the mains line. -/
theorem countP_isMains_tick {steppers : List Event} (h : TickFree steppers) (level : Bool)
    (m : Byte) : (Event.mainsLine level :: steppers ++ meterPulses m).countP isMains = 1 := by
  rw [List.countP_append, List.countP_cons_of_pos rfl, h.countP_isMains, countP_isMains_meterPulses]

/-- Of a tick's events eight are of the meters. -/
theorem countP_isMeter_tick {steppers : List Event} (h : TickFree steppers) (level : Bool)
    (m : Byte) : (Event.mainsLine level :: steppers ++ meterPulses m).countP isMeter = 8 := by
  rw [List.countP_append, List.countP_cons_of_neg (by simp [isMeter]), h.countP_isMeter,
    countP_isMeter_meterPulses]

end events

end Sys2Proof.Machine

namespace Sys2Proof.Claims

open Sys2Proof.Machine

/-! ## The statements -/

/-- Settles O40: TICK's events are one of the mains line, steppers and eight meters; every other
operation's are of neither kind, and RESET alone writes the level besides. -/
theorem tickLockstep : Obligations.TickLockstep := by
  intro i s t h
  by_cases htick : i = .tick
  · subst htick
    obtain ⟨steppers, meters, hfree, hout, hlevel⟩ := exec_tick_emits h
    refine ⟨_, hout, countP_isMains_tick hfree _ meters, ?_, hlevel⟩
    rw [countP_isMeter_tick hfree, countP_isMains_tick hfree]
  · obtain ⟨es, hfree, hout⟩ := exec_emits_tickFree htick h
    refine ⟨es, hout, ?mains, ?meters, ?line⟩
    case mains => rw [hfree.countP_isMains, if_neg htick]
    case meters => rw [hfree.countP_isMeter, hfree.countP_isMains]
    case line =>
      rw [if_neg htick]
      by_cases hreset : i = .reset
      · subst hreset
        obtain rfl := Host.Outcome.next.inj h
        rfl
      · rw [if_neg hreset, exec_keeps_signal50Hz htick hreset h]

/-- Settles O35: the latch is the whole effect, so a second METERW overwrites all the first wrote. -/
theorem meterwLatches : Obligations.MeterwLatches := by
  refine ⟨encode_meterw_toNat, fun data later s => ⟨exec_meterw_eq data s, ?_⟩⟩
  calc execAll [.meterw data, .meterw later] s
      = exec (.meterw later) { s with reel := { s.reel with mmtrData := data } } :=
        execAll_pair_of_next _ (exec_meterw_eq data s)
    _ = .next { s with reel := { s.reel with mmtrData := later } } := exec_meterw_eq later _
    _ = exec (.meterw later) s := (exec_meterw_eq later s).symm

/-- Settles O36: the packed word, and the latch as the whole effect. -/
theorem triacwLatches : Obligations.TriacwLatches :=
  fun data s => ⟨encode_triacw_toNat data, exec_triacw_eq data s⟩

/-- Settles O37: the table hands the latched byte to the meters and leaves `flutter`. -/
theorem tickStandardReel : Obligations.TickStandardReel := by
  intro s hmode
  rw [exec_tick_of_table (modeUpdate_of_standardReel _ _ hmode), meterPulses_eq_eightMeters]
  rfl

/-- Settles O38: the nibble is `reelNibble` of the latched byte, whose four bits the meters do not
see. -/
theorem tickFiveReelEightToFive : Obligations.TickFiveReelEightToFive := by
  intro s hmode
  refine ⟨reelNibble s.reel.mmtrData, reelNibble_toNat _, ?_⟩
  rw [exec_tick_of_table (modeUpdate_of_fiveReel8To5 _ _ hmode), meterPulses_and_0x56]
  rfl

/-- Settles O39: bit 7 goes to `flutter`, and the meters see the byte without it. -/
theorem tickFlutterbox : Obligations.TickFlutterbox := by
  intro s m hmode hm
  rw [exec_tick_of_table (modeUpdate_of_flutterbox _ _ hmode), and_0x7F_eq_of_toNat_eq_mod hm,
    meterPulses_eq_eightMeters]
  rfl

end Sys2Proof.Claims

/-! # Exceptions (60_exceptions.md): nothing faults, and which operations are refused

First which reel modes have a table; then which operations complete, from which it follows that none
faults. -/

namespace Sys2Proof.Machine

open Sys2Proof.Claims

/-! ## The refused forms (42_led_alpha.md R193; 46_reel_meter_mux.md R269) -/

/-- The modes that the model has no table for are those of the statements. -/
theorem modeUpdate_eq_none_iff (cfg : Cfg) (flutter : Bool) (d : Byte) :
    modeUpdate cfg flutter d = none ↔ modeHasNoTable cfg.reelMode := by
  unfold modeUpdate modeHasNoTable
  cases cfg.reelMode <;> simp

section completion

variable {i : Instr} {s : State}

theorem exec_tick_of_modeHasNoTable (h : modeHasNoTable s.cfg.reelMode) :
    exec .tick s = .refused .reelModeUndocumented :=
  exec_tick_of_no_table ((modeUpdate_eq_none_iff _ _ _).2 h)

theorem exec_tick_completes (h : ¬ modeHasNoTable s.cfg.reelMode) :
    ∃ t, exec .tick s = .next t := by
  obtain ⟨⟨meters, steppers, flutter⟩, htable⟩ :=
    Option.ne_none_iff_exists'.1 (mt (modeUpdate_eq_none_iff _ s.reel.flutter s.reel.mmtrData).1 h)
  exact ⟨_, exec_tick_of_table htable⟩

/-! ## Every other operation completes (60_exceptions.md R284, R285) -/

/-- An operation of the host completes in every state, but for the two undocumented forms. -/
theorem exec_completes (hledw : ∀ d, i = .ledw d → s.cfg.ledExtender = .none)
    (htick : i = .tick → ¬ modeHasNoTable s.cfg.reelMode) (hexp : i ≠ .ic24exp) :
    ∃ t, exec i s = .next t := by
  cases i with
  | setgateA | setgateB | setgateC | setinhG1 | setinhG2A | setinhG2B | alphadat
  | inread | aux1r | aux2r | meterw | triacw | reset | wait => exact ⟨_, rfl⟩
  | lampa data => exact ⟨_, exec_lampa_eq data s⟩
  | lampb data => exact ⟨_, exec_lampb_eq data s⟩
  | lampx data =>
    obtain ⟨u, v, hu⟩ := execLampx_writes s data
    exact ⟨_, hu⟩
  | ledw data => exact ⟨_, exec_ledw_of_no_card data (hledw data rfl)⟩
  | alphaclk level => exact ⟨_, exec_alphaclk_eq level s⟩
  | chrw offset call =>
    obtain ⟨es, u, n, hu⟩ := execChrw_writes s offset call
    exact ⟨_, hu⟩
  | chrr offset =>
    obtain ⟨t, ht, -⟩ := exec_chrr_courses offset s
    exact ⟨t, ht⟩
  | tick => exact exec_tick_completes (htick rfl)
  | ic24exp => exact absurd rfl hexp

/-- The event of IC24 completes or is refused (log 3). -/
theorem exec_ic24exp_ne_fault (s : State) (f : Fault) : exec .ic24exp s ≠ .fault f := by
  cases hdue : expiryDue s with
  | true => simp [exec_ic24exp_of_due hdue]
  | false => simp [exec_ic24exp_of_not_due hdue]

/-- No operation faults: what does not complete is refused. -/
theorem exec_ne_fault (i : Instr) (s : State) (f : Fault) : exec i s ≠ .fault f := by
  by_cases hcard : ∃ d, i = .ledw d ∧ s.cfg.ledExtender ≠ .none
  · obtain ⟨d, rfl, hcard⟩ := hcard
    simp [exec_ledw_of_card d hcard]
  by_cases hmode : i = .tick ∧ modeHasNoTable s.cfg.reelMode
  · obtain ⟨rfl, hmode⟩ := hmode
    simp [exec_tick_of_modeHasNoTable hmode]
  by_cases hexp : i = .ic24exp
  · exact hexp ▸ exec_ic24exp_ne_fault s f
  · obtain ⟨t, ht⟩ := exec_completes (i := i) (s := s)
      (fun d hd => by_contra fun hne => hcard ⟨d, hd, hne⟩) (fun hi ht => hmode ⟨hi, ht⟩) hexp
    simp [ht]

/-- No step faults: it is an operation, a refused word, or no change at all. -/
theorem step_ne_fault (s : State) (f : Fault) : step s ≠ .fault f := by
  by_cases hdue : expiryIsDue s
  · rw [step_of_due hdue]
    exact exec_ne_fault _ _ f
  cases hs : s.stream with
  | nil => simp [step_of_no_word hdue hs]
  | cons w rest =>
    cases hw : decodeHost w with
    | error e => simp [step_of_bad_word hdue hs hw]
    | ok i =>
      rw [step_of_host_word hdue hs hw]
      exact exec_ne_fault _ _ f

end completion

end Sys2Proof.Machine

namespace Sys2Proof.Claims

open Sys2Proof.Machine

/-! ## The statement -/

/-- Settles O57: the two refusals, the completion of every other operation of the host, and so no
fault. -/
theorem onlyUndocumentedFormsRefused : Obligations.OnlyUndocumentedFormsRefused :=
  fun i s => ⟨exec_ne_fault i s, step_ne_fault s, fun d => exec_ledw_of_card d,
    exec_tick_of_modeHasNoTable, exec_completes⟩

end Sys2Proof.Claims

/-! # Load, RESET, WAIT and the hazards (70_reset_and_hazards.md)

First what load checks and what it keeps, then the states a session can reach; then a wait as an
update of the sequencer, and three writes of the small card. -/

namespace Sys2Proof.Machine

open Sys2Proof.Claims

/-! ## A check and the field it reports (70_reset_and_hazards.md R311) -/

/-- A check that reports `field` exactly when its value is `bad`. -/
def Reports {α : Type} (field : CfgField) (bad : Prop) (x : Except Fault α) : Prop :=
  (bad → x = .error (.configurationError field)) ∧ (¬ bad → ∃ a, x = .ok a)

/-- Checks in a row that report the field `o`, and succeed when there is none. -/
def ReportsFirst {α : Type} (o : Option CfgField) (x : Except Fault α) : Prop :=
  (∀ f, o = some f → x = .error (.configurationError f)) ∧ (o = none → ∃ a, x = .ok a)

section reports

variable {α β : Type} {field : CfgField} {bad bad' : Prop} {x : Except Fault α}
  {f : α → Except Fault β}

theorem bind_of_error {e : Fault} (h : x = .error e) : x >>= f = .error e := by
  rw [h]
  rfl

theorem bind_of_ok {a : α} (h : x = .ok a) : x >>= f = f a := by
  rw [h]
  rfl

theorem reportsFirst_ok (a : α) : ReportsFirst none (.ok a) := ⟨by simp, fun _ => ⟨a, rfl⟩⟩

/-- A check goes before the checks that follow it. -/
theorem Reports.bind_first [Decidable bad] {o : Option CfgField} (hx : Reports field bad x)
    (hf : ∀ a, ReportsFirst o (f a)) :
    ReportsFirst (if bad then some field else o) (x >>= f) := by
  obtain ⟨hfails, hpasses⟩ := hx
  by_cases hbad : bad
  · rw [if_pos hbad, bind_of_error (hfails hbad)]
    exact ⟨fun g hg => Option.some.inj hg ▸ rfl, by simp⟩
  · obtain ⟨a, ha⟩ := hpasses hbad
    rw [if_neg hbad, bind_of_ok ha]
    exact hf a

/-- Two checks of one field are one check of it. -/
theorem Reports.bind (hx : Reports field bad x) (hf : ∀ a, Reports field bad' (f a)) :
    Reports field (bad ∨ bad') (x >>= f) := by
  obtain ⟨hfails, hpasses⟩ := hx
  by_cases hbad : bad
  · exact ⟨fun _ => bind_of_error (hfails hbad), fun h => absurd (.inl hbad) h⟩
  · obtain ⟨a, ha⟩ := hpasses hbad
    rw [or_iff_right hbad, bind_of_ok ha]
    exact hf a

theorem Reports.map (hx : Reports field bad x) (g : α → β) : Reports field bad (x.map g) := by
  obtain ⟨hfails, hpasses⟩ := hx
  refine ⟨fun hbad => by rw [hfails hbad]; rfl, fun hbad => ?_⟩
  obtain ⟨a, ha⟩ := hpasses hbad
  exact ⟨g a, by rw [ha]; rfl⟩

theorem reports_ok (a : α) : Reports field False (.ok a) := ⟨False.elim, fun _ => ⟨a, rfl⟩⟩

end reports

/-! ## The checks of load -/

theorem checkKnown_reports {α : Type} (field : CfgField) (v : Option α) :
    Reports field (v = none) (checkKnown field v) := by
  cases v <;> simp [Reports, checkKnown]

theorem checkTable_reports {α : Type} (n : Nat) (rows : List α) :
    Reports .chr (rows.length ≠ n) (checkTable n rows) :=
  ⟨fun hne => dif_neg hne, fun heq => ⟨_, dif_pos (not_not.1 heq)⟩⟩

theorem checkBwbTable_reports (n : Nat) (rows : Option (List Byte)) :
    Reports .chr (rows.map List.length ≠ some n) (checkBwbTable n rows) := by
  cases rows with
  | none => simp [Reports, checkBwbTable]
  | some bytes => simpa [checkBwbTable] using checkTable_reports n bytes

theorem rawChrValid_bwb_eq_false_iff (calls common game : Option (List Byte)) :
    rawChrValid (.bwb calls common game) = false ↔
      calls.map List.length ≠ some 4 ∨ common.map List.length ≠ some 5 ∨
        game.map List.length ≠ some 5 ∨ False := by
  simp only [rawChrValid, Bool.and_eq_false_iff, beq_eq_false_iff_ne, or_false, or_assoc]

/-- The characteriser's check is the statements' `rawChrValid` (60_exceptions.md R282). -/
theorem checkChr_reports (r : RawChr) : Reports .chr (rawChrValid r = false) (checkChr r) := by
  cases r with
  | none => exact ⟨by simp [rawChrValid], fun _ => ⟨_, rfl⟩⟩
  | barcrest rows =>
    have hlength : rawChrValid (.barcrest rows) = false ↔ rows.length ≠ 72 := beq_eq_false_iff_ne
    rw [hlength]
    exact (checkTable_reports 72 rows).map ChrConfig.barcrest
  | bwb calls common game =>
    rw [rawChrValid_bwb_eq_false_iff]
    exact (checkBwbTable_reports 4 calls).bind fun _ => (checkBwbTable_reports 5 common).bind
      fun _ => (checkBwbTable_reports 5 game).bind fun _ => reports_ok _

theorem checkPulse_reports (t : Nat) : Reports .tIc24 (t = 0) (checkPulse t) :=
  ⟨fun hzero => if_pos hzero, fun hpos => ⟨_, if_neg hpos⟩⟩

theorem checkPhase_reports (p : Nat) :
    Reports .smallCardCommitPhase (2 < p) (checkPhase p) :=
  ⟨fun hlt => dif_neg (Nat.not_lt.2 hlt),
    fun hle => ⟨_, dif_pos (Nat.lt_succ_of_le (Nat.le_of_not_lt hle))⟩⟩

theorem checkReelIndex_reports (i : Int) : Reports .reel5Index (i < 0) (checkReelIndex i) :=
  ⟨fun hneg => if_pos hneg, fun hnonneg => ⟨_, if_neg hnonneg⟩⟩

/-- Validation reports the statements' first bad field: its checks are those of `firstBadField`, in
the same order. -/
theorem validate_reportsFirst (r : RawCfg) : ReportsFirst (firstBadField r) (validate r) :=
  (checkKnown_reports _ r.lampExtender).bind_first fun _ =>
  (checkKnown_reports _ r.ledExtender).bind_first fun _ =>
  (checkKnown_reports _ r.reelMode).bind_first fun _ =>
  (checkChr_reports r.chr).bind_first fun _ =>
  (checkPulse_reports r.tIc24).bind_first fun _ =>
  (checkKnown_reports _ r.ledWiring).bind_first fun _ =>
  (checkPhase_reports r.smallCardCommitPhase).bind_first fun _ =>
  (checkReelIndex_reports r.reel5Index).bind_first fun _ => reportsFirst_ok _

/-! ## What validation keeps of the record -/

theorem eq_and_pos_of_checkPulse {t n : Nat} (h : checkPulse t = .ok n) : n = t ∧ 0 < n := by
  by_cases ht : t = 0
  · simp [checkPulse, ht] at h
  · simp only [checkPulse, ht, if_false, Except.ok.injEq] at h
    omega

theorem val_eq_of_checkPhase {p : Nat} {q : Fin 3} (h : checkPhase p = .ok q) : q.val = p := by
  by_cases hp : p < 3
  · simp only [checkPhase, hp, dite_true, Except.ok.injEq] at h
    exact h ▸ rfl
  · simp [checkPhase, hp] at h

theorem cast_eq_of_checkReelIndex {i : Int} {n : Nat} (h : checkReelIndex i = .ok n) :
    (n : Int) = i := by
  by_cases hi : i < 0
  · simp [checkReelIndex, hi] at h
  · simp only [checkReelIndex, hi, if_false, Except.ok.injEq] at h
    omega

/-- A configuration that passes validation holds the OPEN parameters of the record supplied, and its
pulse is positive. -/
theorem validate_holds_open {r : RawCfg} {c : Cfg} (h : validate r = .ok c) :
    (c.tIc24 = r.tIc24 ∧ 0 < c.tIc24) ∧ c.ic24CouplesG2A = r.ic24CouplesG2A ∧
      r.ledWiring = some c.ledWiring ∧ c.smallCardCommitPhase.val = r.smallCardCommitPhase ∧
      (c.reel5Index : Int) = r.reel5Index ∧ c.auxCompose = r.auxCompose ∧
      c.bwbCheckpointAdvances = r.bwbCheckpointAdvances := by
  obtain ⟨_, _, h⟩ := bind_eq_ok.1 h
  obtain ⟨_, _, h⟩ := bind_eq_ok.1 h
  obtain ⟨_, _, h⟩ := bind_eq_ok.1 h
  obtain ⟨_, _, h⟩ := bind_eq_ok.1 h
  obtain ⟨tIc24, hpulse, h⟩ := bind_eq_ok.1 h
  obtain ⟨ledWiring, hwiring, h⟩ := bind_eq_ok.1 h
  obtain ⟨phase, hphase, h⟩ := bind_eq_ok.1 h
  obtain ⟨reel5Index, hreel, h⟩ := bind_eq_ok.1 h
  obtain rfl := Except.ok.inj h
  exact ⟨eq_and_pos_of_checkPulse hpulse, rfl, checkKnown_eq_ok.1 hwiring,
    val_eq_of_checkPhase hphase, cast_eq_of_checkReelIndex hreel, rfl, rfl⟩

/-! ## Reachable states (70_reset_and_hazards.md R310, R318) -/

theorem load_sound {r : RawCfg} {s : State} (h : State.load r = .ok s) : s.Sound := by
  obtain ⟨c, hc, rfl⟩ := map_eq_ok.1 h
  obtain ⟨⟨-, hpos⟩, -⟩ := validate_holds_open hc
  exact fresh_sound hpos

theorem reachable_sound {s : State} (h : Reachable s) : s.Sound := by
  induction h with
  | load r s hload => exact load_sound hload
  | issue s w _ hs => exact hs.withStream _
  | step s t _ hstep hs => exact step_keeps_sound hs hstep

/-- A deadline that lies ahead is not due. -/
theorem State.TimerSound.not_due {s : State} (hs : s.TimerSound) : ¬ expiryIsDue s :=
  fun ⟨d, hd, hle⟩ => absurd (hs.deadlineAhead d hd) (Nat.not_lt.2 hle)

/-! ## WAIT on the sequencer (70_reset_and_hazards.md R318) -/

/-- The sequencer once virtual time has moved on to `target`. -/
def Strobe.elapse (cfg : Cfg) (target : Nat) (u : Strobe) : Strobe :=
  match u.ic24Deadline with
  | none => u
  | some d => if d ≤ target then u.expire cfg else u

section elapse

variable {cfg : Cfg} {target : Nat} {u : Strobe}

theorem elapse_of_ahead (h : ∀ d, u.ic24Deadline = some d → target < d) :
    u.elapse cfg target = u := by
  unfold Strobe.elapse
  split
  · rfl
  next d hd => exact if_neg (Nat.not_le.2 (h d hd))

theorem elapse_of_reached {d : Nat} (hd : u.ic24Deadline = some d) (hle : d ≤ target) :
    u.elapse cfg target = u.expire cfg := by
  simp [Strobe.elapse, hd, hle]

/-- WAIT writes the clock, and the sequencer as the clock makes it. -/
theorem exec_wait_eq (n : BitVec 16) (s : State) :
    exec (.wait n) s = .next { s with
      strobe := s.strobe.elapse s.cfg (s.now + n.toNat), now := s.now + n.toNat } := by
  by_cases hahead : ∀ d, s.strobe.ic24Deadline = some d → s.now + n.toNat < d
  · rw [elapse_of_ahead hahead]
    exact execWait_of_ahead hahead
  · push Not at hahead
    obtain ⟨d, hd, hle⟩ := hahead
    rw [elapse_of_reached hd hle]
    exact execWait_of_reached hd hle

/-- A stop on the way changes nothing: an expiry taken before it is not pending after it. -/
theorem elapse_elapse {first : Nat} (h : first ≤ target) :
    (u.elapse cfg first).elapse cfg target = u.elapse cfg target := by
  by_cases hahead : ∀ d, u.ic24Deadline = some d → first < d
  · rw [elapse_of_ahead hahead]
  · push Not at hahead
    obtain ⟨d, hd, hle⟩ := hahead
    rw [elapse_of_reached hd hle, elapse_of_reached hd (hle.trans h)]
    exact elapse_of_ahead (by simp)

end elapse

/-! ## Three writes of the small card (70_reset_and_hazards.md R322) -/

/-- Of three writes, the one at the given phase, counted from the first. -/
def writeAtPhase (phase : Fin 3) (w0 w1 w2 : Byte) : Byte :=
  if phase = 0 then w0 else if phase = 1 then w1 else w2

section smallCard

variable {cfg : Cfg} {u : LampUnit} {data : Byte}

theorem smallCardWrite_of_change (h : smallCardColumn data ≠ u.scCol) :
    smallCardWrite cfg data u = { u with
      scCol := smallCardColumn data
      scPhase := 1
      lamp := if 0 = cfg.smallCardCommitPhase then
          u.lamp.writeBits (smallCardBase (smallCardColumn data)) (smallCardValue data) 5
        else u.lamp } := by
  have hphase : smallCardPhase u data = 0 := if_pos h
  rw [smallCardWrite, hphase]
  rfl

theorem smallCardWrite_of_same (h : smallCardColumn data = u.scCol) :
    smallCardWrite cfg data u = { u with
      scPhase := phaseNext u.scPhase
      lamp := if u.scPhase = cfg.smallCardCommitPhase then
          u.lamp.writeBits (smallCardBase u.scCol) (smallCardValue data) 5
        else u.lamp } := by
  have hphase : smallCardPhase u data = u.scPhase := if_neg (not_not_intro h)
  rw [smallCardWrite, hphase, h]

/-- Three writes from a column change on meet the phases 0, 1, 2: one of them commits, and the phase
comes back to 0. -/
theorem smallCardWrite_cycle {w0 w1 w2 : Byte} (h0 : smallCardColumn w0 ≠ u.scCol)
    (h1 : smallCardColumn w1 = smallCardColumn w0) (h2 : smallCardColumn w2 = smallCardColumn w0) :
    smallCardWrite cfg w2 (smallCardWrite cfg w1 (smallCardWrite cfg w0 u)) = { u with
      scCol := smallCardColumn w0
      scPhase := 0
      lamp := u.lamp.writeBits (smallCardBase (smallCardColumn w0))
        (smallCardValue (writeAtPhase cfg.smallCardCommitPhase w0 w1 w2)) 5 } := by
  rw [smallCardWrite_of_change h0, smallCardWrite_of_same (data := w1) h1,
    smallCardWrite_of_same (data := w2) h2]
  have hphases : cfg.smallCardCommitPhase = 0 ∨ cfg.smallCardCommitPhase = 1 ∨
      cfg.smallCardCommitPhase = 2 := by omega
  obtain hp | hp | hp := hphases <;> rw [hp] <;> rfl

/-- Equal low three bits are one card column (30_encoding.md R114). -/
theorem smallCardColumn_eq_of_mod {w w' : Byte} (h : w.toNat % 8 = w'.toNat % 8) :
    smallCardColumn w = smallCardColumn w' := by
  refine BitVec.eq_of_toNat_eq ?_
  rw [smallCardColumn_toNat, smallCardColumn_toNat, h]

end smallCard

/-- Under SMALL_CARD a run of LAMPX is the card's writes, one after another. -/
theorem execAll_lampx_of_smallCard (ws : List Byte) {s : State}
    (hkind : s.cfg.lampExtender = .smallCard) :
    execAll (ws.map .lampx) s = .next { s with
      lamps := ws.foldl (fun u w => smallCardWrite s.cfg w u) s.lamps } := by
  induction ws generalizing s with
  | nil => rfl
  | cons w rest ih =>
    exact (execAll_cons_of_next _ (exec_lampx_of_smallCard w hkind)).trans (ih hkind)

end Sys2Proof.Machine

namespace Sys2Proof.Claims

open Sys2Proof.Machine

/-! ## The statements -/

/-- Settles O42: validation reports the first bad field, and without one keeps every field of the
record. -/
theorem loadChecksConfiguration : Obligations.LoadChecksConfiguration := by
  intro r
  obtain ⟨hfails, hpasses⟩ := validate_reportsFirst r
  refine ⟨fun f hf => by rw [State.load, hfails f hf]; rfl, fun hnone => ?_⟩
  obtain ⟨c, hc⟩ := hpasses hnone
  obtain ⟨hcount, hmode, hlamp, hled, hchr⟩ := validate_holds_record hc
  obtain ⟨⟨hpulse, -⟩, hopen⟩ := validate_holds_open hc
  exact ⟨c, map_eq_ok.2 ⟨c, hc, rfl⟩, hcount, hmode, hlamp, hled, hchr, hpulse, hopen⟩

/-- Settles O60, by induction on how the state was reached: load gives a sound state, a word issued
is no part of soundness, and a step keeps it. -/
theorem reachableStatesAreSound : Obligations.ReachableStatesAreSound :=
  fun _ h => ⟨reachable_sound h, (reachable_sound h).timer.not_due⟩

/-- Settles O45: the two waits stop once on the way to the instant of the one. -/
theorem waitsAddUp : Obligations.WaitsAddUp := by
  intro a b s hsum
  have hinstant : s.now + a.toNat + b.toNat = s.now + (a + b).toNat := by
    rw [BitVec.toNat_add_of_lt hsum, Nat.add_assoc]
  refine ⟨_, ?_, exec_wait_eq (a + b) s⟩
  rw [execAll_pair_of_next _ (exec_wait_eq a s), exec_wait_eq, elapse_elapse (Nat.le_add_right _ _),
    hinstant]

/-- Settles O17: the three writes meet the phases 0, 1 and 2, and the one at the commit phase writes
its inverted lines. -/
theorem smallCardCommitsOneInThree : Obligations.SmallCardCommitsOneInThree := by
  intro w0 w1 w2 s hkind h0 h1 h2
  have hchange : smallCardColumn w0 ≠ s.lamps.scCol := fun h =>
    h0 ((smallCardColumn_toNat w0).symm.trans (congrArg BitVec.toNat h))
  refine ⟨_, execAll_lampx_of_smallCard [w0, w1, w2] hkind, ?_⟩
  simp only [List.foldl_cons, List.foldl_nil]
  rw [smallCardWrite_cycle hchange (smallCardColumn_eq_of_mod h1) (smallCardColumn_eq_of_mod h2),
    ← smallCardColumn_toNat]
  exact ⟨rfl, rfl, fun k => ⟨fun hk => (read_writeBits_of_inGroup _ _ _ hk).trans
    (smallCardValue_getLsbD_of_inGroup _ hk), read_writeBits_of_not_inGroup _ _ _⟩⟩

/-- Settles O41: RESET writes the five units whole; the pulse that ran before it is gone, so the
wait meets no deadline. -/
theorem resetOperation : Obligations.ResetOperation := by
  refine ⟨rfl, fun s => rfl, fresh_lampAt _, fun n => ⟨fresh_ledAt _ n, fresh_led2At _ n⟩,
    fun s => rfl, ?_⟩
  rw [execAll_cons_of_next (i := .setgateA true) _ rfl, execAll_pair_of_next (i := .reset) _ rfl]
  exact ⟨_, execWait_of_ahead (by simp [Strobe.atReset]), rfl, rfl, rfl⟩

end Sys2Proof.Claims
